-- ==== Sys2Proof/Word.lean ====
section
/-! DEFINITION. The two word types of the engine: 8-bit data and 16-bit addresses (00_scope.md R7, R8). -/

namespace Sys2Proof

/-- An 8-bit value: a register, a flag's source, a memory byte, an operand byte (R7 `XLEN`). -/
abbrev Byte := BitVec 8

/-- A 16-bit value: an address or the program counter (R7 `ALEN`). -/
abbrev Word := BitVec 16

end Sys2Proof
end

