-- ==== Sys2Proof/Machine/Memory.lean ====
section
/-! DEFINITION. The flat 65536-byte store (20_memory.md R50 to R52, R57): a list of address and byte pairs in one
canonical form, addresses strictly rising and no entry equal to what an unlisted address reads as. -/

namespace Sys2Proof.Machine

/-- Memory: the bytes that differ from 0x00, by rising address. -/
abbrev Memory := List Host.Cell

/-- What an address nothing has been stored to reads as: every byte is 0x00 at creation (R52). -/
def Memory.unlisted : Byte := 0x00#8

/-- The byte a list of cells holds for an address. -/
def Memory.lookup : Memory → Nat → Byte
  | [], _ => Memory.unlisted
  | (k, v) :: rest, a => if k = a then v else Memory.lookup rest a

/-- Put a byte at its place among rising addresses, in place of the entry already there. -/
def Memory.insert : Memory → Nat → Byte → Memory
  | [], a, v => [(a, v)]
  | (k, w) :: rest, a, v =>
    if a < k then (a, v) :: (k, w) :: rest
    else if a = k then (a, v) :: rest
    else (k, w) :: Memory.insert rest a v

/-- Take every entry of an address out. -/
def Memory.erase : Memory → Nat → Memory
  | [], _ => []
  | (k, w) :: rest, a => if k = a then Memory.erase rest a else (k, w) :: Memory.erase rest a

/-- `MemRead(addr, 1)` (R10): total over the 16-bit address domain (R51). -/
def Memory.read (m : Memory) (addr : Word) : Byte := Memory.lookup m addr.toNat

/-- `MemWrite(addr, 1, v)` (R10): it cannot fail and no address is protected (R51, R59). -/
def Memory.write (m : Memory) (addr : Word) (v : Byte) : Memory :=
  if v = Memory.unlisted then Memory.erase m addr.toNat else Memory.insert m addr.toNat v

/-- Addresses from `lo` up, strictly rising, inside the 65536-byte space, no entry equal to the unlisted value. -/
def Memory.wfFrom : Nat → Memory → Bool
  | _, [] => true
  | lo, (k, v) :: rest =>
    decide (lo ≤ k) && decide (k < 65536) && decide (v ≠ Memory.unlisted) && Memory.wfFrom (k + 1) rest

/-- The canonical form. -/
def Memory.wf (m : Memory) : Bool := Memory.wfFrom 0 m

end Sys2Proof.Machine
end

