-- ==== Sys2Proof/Syntax.lean ====
section
/-! DEFINITION. The instruction set: one constructor of `Instr` for each of the 58 rows of spec/opcode_table.json
(30_encoding.md R74), its operation and addressing mode, and the debug port's command set (60_exceptions.md R241). -/

namespace Sys2Proof

/-- The sixteen operations (R2, R74), under the mnemonics the spec uses. -/
inductive Op where
  | lda | ldx | ldy | sta | stx | sty | adc | sbc | inc | inx | iny | sec | clc | jsr | rts | brk
  deriving DecidableEq, Repr

/-- The ten addressing modes (41_addressing.md R101 to R111). -/
inductive Mode where
  | imp | imm | zp | zpx | zpy | abs | abx | aby | izx | izy
  deriving DecidableEq, Repr

/-- Operand bytes after the opcode byte in each mode (R71, R113). -/
def Mode.operandBytes : Mode → Nat
  | .imp => 0
  | .imm => 1
  | .zp => 1
  | .zpx => 1
  | .zpy => 1
  | .abs => 2
  | .abx => 2
  | .aby => 2
  | .izx => 1
  | .izy => 1

/-- An instruction with its operand: `value` is `imm8`, `zp` is `zp8`, `addr` is `abs16` (R71, R73). -/
inductive Instr where
  /-- LDA IMM, default opcode 0xA9 (R121, R102). -/
  | ldaImm (value : Byte)
  /-- LDA ZP, default opcode 0xA5 (R121, R103). -/
  | ldaZp (zp : Byte)
  /-- LDA ZPX, default opcode 0xB5 (R121, R104). -/
  | ldaZpx (zp : Byte)
  /-- LDA ABS, default opcode 0xAD (R121, R106). -/
  | ldaAbs (addr : Word)
  /-- LDA ABX, default opcode 0xBD (R121, R107). -/
  | ldaAbx (addr : Word)
  /-- LDA ABY, default opcode 0xB9 (R121, R108). -/
  | ldaAby (addr : Word)
  /-- LDA IZX, default opcode 0xA1 (R121, R110). -/
  | ldaIzx (zp : Byte)
  /-- LDA IZY, default opcode 0xB1 (R121, R111). -/
  | ldaIzy (zp : Byte)
  /-- LDX IMM, default opcode 0xA2 (R122, R102). -/
  | ldxImm (value : Byte)
  /-- LDX ZP, default opcode 0xA6 (R122, R103). -/
  | ldxZp (zp : Byte)
  /-- LDX ZPY, default opcode 0xB6 (R122, R105). -/
  | ldxZpy (zp : Byte)
  /-- LDX ABS, default opcode 0xAE (R122, R106). -/
  | ldxAbs (addr : Word)
  /-- LDX ABY, default opcode 0xBE (R122, R108). -/
  | ldxAby (addr : Word)
  /-- LDY IMM, default opcode 0xA0 (R123, R102). -/
  | ldyImm (value : Byte)
  /-- LDY ZP, default opcode 0xA4 (R123, R103). -/
  | ldyZp (zp : Byte)
  /-- LDY ZPX, default opcode 0xB4 (R123, R104). -/
  | ldyZpx (zp : Byte)
  /-- LDY ABS, default opcode 0xAC (R123, R106). -/
  | ldyAbs (addr : Word)
  /-- LDY ABX, default opcode 0xBC (R123, R107). -/
  | ldyAbx (addr : Word)
  /-- STA ZP, default opcode 0x85 (R131, R103). -/
  | staZp (zp : Byte)
  /-- STA ZPX, default opcode 0x95 (R131, R104). -/
  | staZpx (zp : Byte)
  /-- STA ABS, default opcode 0x8D (R131, R106). -/
  | staAbs (addr : Word)
  /-- STA ABX, default opcode 0x9D (R131, R107). -/
  | staAbx (addr : Word)
  /-- STA ABY, default opcode 0x99 (R131, R108). -/
  | staAby (addr : Word)
  /-- STA IZX, default opcode 0x81 (R131, R110). -/
  | staIzx (zp : Byte)
  /-- STA IZY, default opcode 0x91 (R131, R111). -/
  | staIzy (zp : Byte)
  /-- STX ZP, default opcode 0x86 (R132, R103). -/
  | stxZp (zp : Byte)
  /-- STX ZPY, default opcode 0x96 (R132, R105). -/
  | stxZpy (zp : Byte)
  /-- STX ABS, default opcode 0x8E (R132, R106). -/
  | stxAbs (addr : Word)
  /-- STY ZP, default opcode 0x84 (R133, R103). -/
  | styZp (zp : Byte)
  /-- STY ZPX, default opcode 0x94 (R133, R104). -/
  | styZpx (zp : Byte)
  /-- STY ABS, default opcode 0x8C (R133, R106). -/
  | styAbs (addr : Word)
  /-- ADC IMM, default opcode 0x69 (R145, R102). -/
  | adcImm (value : Byte)
  /-- ADC ZP, default opcode 0x65 (R145, R103). -/
  | adcZp (zp : Byte)
  /-- ADC ZPX, default opcode 0x75 (R145, R104). -/
  | adcZpx (zp : Byte)
  /-- ADC ABS, default opcode 0x6D (R145, R106). -/
  | adcAbs (addr : Word)
  /-- ADC ABX, default opcode 0x7D (R145, R107). -/
  | adcAbx (addr : Word)
  /-- ADC ABY, default opcode 0x79 (R145, R108). -/
  | adcAby (addr : Word)
  /-- ADC IZX, default opcode 0x61 (R145, R110). -/
  | adcIzx (zp : Byte)
  /-- ADC IZY, default opcode 0x71 (R145, R111). -/
  | adcIzy (zp : Byte)
  /-- SBC IMM, default opcode 0xE9 (R147, R102). -/
  | sbcImm (value : Byte)
  /-- SBC ZP, default opcode 0xE5 (R147, R103). -/
  | sbcZp (zp : Byte)
  /-- SBC ZPX, default opcode 0xF5 (R147, R104). -/
  | sbcZpx (zp : Byte)
  /-- SBC ABS, default opcode 0xED (R147, R106). -/
  | sbcAbs (addr : Word)
  /-- SBC ABX, default opcode 0xFD (R147, R107). -/
  | sbcAbx (addr : Word)
  /-- SBC ABY, default opcode 0xF9 (R147, R108). -/
  | sbcAby (addr : Word)
  /-- SBC IZX, default opcode 0xE1 (R147, R110). -/
  | sbcIzx (zp : Byte)
  /-- SBC IZY, default opcode 0xF1 (R147, R111). -/
  | sbcIzy (zp : Byte)
  /-- INC ZP, default opcode 0xE6 (R161, R103). -/
  | incZp (zp : Byte)
  /-- INC ZPX, default opcode 0xF6 (R161, R104). -/
  | incZpx (zp : Byte)
  /-- INC ABS, default opcode 0xEE (R161, R106). -/
  | incAbs (addr : Word)
  /-- INC ABX, default opcode 0xFE (R161, R107). -/
  | incAbx (addr : Word)
  /-- INX IMP, default opcode 0xE8 (R162, R101). -/
  | inx
  /-- INY IMP, default opcode 0xC8 (R163, R101). -/
  | iny
  /-- SEC IMP, default opcode 0x38 (R170, R101). -/
  | sec
  /-- CLC IMP, default opcode 0x18 (R171, R101). -/
  | clc
  /-- JSR ABS, default opcode 0x20 (R186, R106). -/
  | jsr (target : Word)
  /-- RTS IMP, default opcode 0x60 (R187, R101). -/
  | rts
  /-- BRK IMP, default opcode 0x00 (R200, R101). -/
  | brk
  deriving DecidableEq, Repr

/-- The operation of an instruction (R74, column mnemonic). -/
def Instr.op : Instr → Op
  | .ldaImm _ => .lda
  | .ldaZp _ => .lda
  | .ldaZpx _ => .lda
  | .ldaAbs _ => .lda
  | .ldaAbx _ => .lda
  | .ldaAby _ => .lda
  | .ldaIzx _ => .lda
  | .ldaIzy _ => .lda
  | .ldxImm _ => .ldx
  | .ldxZp _ => .ldx
  | .ldxZpy _ => .ldx
  | .ldxAbs _ => .ldx
  | .ldxAby _ => .ldx
  | .ldyImm _ => .ldy
  | .ldyZp _ => .ldy
  | .ldyZpx _ => .ldy
  | .ldyAbs _ => .ldy
  | .ldyAbx _ => .ldy
  | .staZp _ => .sta
  | .staZpx _ => .sta
  | .staAbs _ => .sta
  | .staAbx _ => .sta
  | .staAby _ => .sta
  | .staIzx _ => .sta
  | .staIzy _ => .sta
  | .stxZp _ => .stx
  | .stxZpy _ => .stx
  | .stxAbs _ => .stx
  | .styZp _ => .sty
  | .styZpx _ => .sty
  | .styAbs _ => .sty
  | .adcImm _ => .adc
  | .adcZp _ => .adc
  | .adcZpx _ => .adc
  | .adcAbs _ => .adc
  | .adcAbx _ => .adc
  | .adcAby _ => .adc
  | .adcIzx _ => .adc
  | .adcIzy _ => .adc
  | .sbcImm _ => .sbc
  | .sbcZp _ => .sbc
  | .sbcZpx _ => .sbc
  | .sbcAbs _ => .sbc
  | .sbcAbx _ => .sbc
  | .sbcAby _ => .sbc
  | .sbcIzx _ => .sbc
  | .sbcIzy _ => .sbc
  | .incZp _ => .inc
  | .incZpx _ => .inc
  | .incAbs _ => .inc
  | .incAbx _ => .inc
  | .inx => .inx
  | .iny => .iny
  | .sec => .sec
  | .clc => .clc
  | .jsr _ => .jsr
  | .rts => .rts
  | .brk => .brk

/-- The addressing mode of an instruction (R74, column mode). -/
def Instr.mode : Instr → Mode
  | .ldaImm _ => .imm
  | .ldaZp _ => .zp
  | .ldaZpx _ => .zpx
  | .ldaAbs _ => .abs
  | .ldaAbx _ => .abx
  | .ldaAby _ => .aby
  | .ldaIzx _ => .izx
  | .ldaIzy _ => .izy
  | .ldxImm _ => .imm
  | .ldxZp _ => .zp
  | .ldxZpy _ => .zpy
  | .ldxAbs _ => .abs
  | .ldxAby _ => .aby
  | .ldyImm _ => .imm
  | .ldyZp _ => .zp
  | .ldyZpx _ => .zpx
  | .ldyAbs _ => .abs
  | .ldyAbx _ => .abx
  | .staZp _ => .zp
  | .staZpx _ => .zpx
  | .staAbs _ => .abs
  | .staAbx _ => .abx
  | .staAby _ => .aby
  | .staIzx _ => .izx
  | .staIzy _ => .izy
  | .stxZp _ => .zp
  | .stxZpy _ => .zpy
  | .stxAbs _ => .abs
  | .styZp _ => .zp
  | .styZpx _ => .zpx
  | .styAbs _ => .abs
  | .adcImm _ => .imm
  | .adcZp _ => .zp
  | .adcZpx _ => .zpx
  | .adcAbs _ => .abs
  | .adcAbx _ => .abx
  | .adcAby _ => .aby
  | .adcIzx _ => .izx
  | .adcIzy _ => .izy
  | .sbcImm _ => .imm
  | .sbcZp _ => .zp
  | .sbcZpx _ => .zpx
  | .sbcAbs _ => .abs
  | .sbcAbx _ => .abx
  | .sbcAby _ => .aby
  | .sbcIzx _ => .izx
  | .sbcIzy _ => .izy
  | .incZp _ => .zp
  | .incZpx _ => .zpx
  | .incAbs _ => .abs
  | .incAbx _ => .abx
  | .inx => .imp
  | .iny => .imp
  | .sec => .imp
  | .clc => .imp
  | .jsr _ => .abs
  | .rts => .imp
  | .brk => .imp

/-- Bytes of an instruction: the opcode byte and its operand bytes (R70, R71). -/
def Instr.length (i : Instr) : Nat := 1 + i.mode.operandBytes

/-- What the debug port can be told at a pause (R237 to R241). The bounds of `dumpMemory` are the two numbers the
operator typed; `malformed` is any line that is none of the five commands (R240). -/
inductive DebugCommand where
  /-- The blank line: advance one instruction. -/
  | step
  | exit
  | help
  | dumpStack
  | dumpMemory (first last : Nat)
  | malformed
  deriving DecidableEq, Repr

end Sys2Proof
end

