-- ==== Sys2Proof/Config.lean ====
section
/-! DEFINITION. The engine's parameters (00_scope.md R7) with every value 92_eei_decisions.md defines for them.
The values a run takes by default stand in Sys2Proof/Machine/Params.lean, the default table in Sys2Proof/Decode.lean.
Log entries 1 and 2. -/

namespace Sys2Proof

/-- `CARRY_RULE` (R142, decision D10): the carry ADC writes. -/
inductive CarryRule where
  /-- `C <- A[7] ^ R[7]` (the default). -/
  | msbXor
  /-- `C <- 1` exactly when `A + M + Cin >= 256`. -/
  | bit8
  deriving DecidableEq, Repr

/-- `SBC_FLAGS` (R146, decision D11): the `C` and `V` SBC writes. -/
inductive SbcFlags where
  /-- `C <- A[7] ^ R[7]`; `V` by the add formula with the operand as fetched (the default). -/
  | uniformRawOperand
  /-- `C` as above; `V` by the add formula with the operand complemented. -/
  | uniformComplementedOperand
  /-- `C` means no borrow; `V <- (A[7] ^ M[7]) & (A[7] ^ R[7])`. -/
  | mos
  deriving DecidableEq, Repr

/-- `LOAD_INC_FLAGS` (R120, R160, decision D12): whether loads and increments write `Z` and `N`. -/
inductive LoadIncFlags where
  /-- They write `Z` and `N` from the value (the default). -/
  | zn
  /-- They write no flag. -/
  | none
  deriving DecidableEq, Repr

/-- `ZP_PTR_WRAP` (R109, R110, decision D13): where an indirect mode's pointer lies. -/
inductive ZpPtrWrap where
  /-- The Indirect,X sum and the address of the high byte wrap modulo 256 (the default). -/
  | wrap8
  /-- Both are plain 16-bit sums. -/
  | plain16
  deriving DecidableEq, Repr

/-- `JSR_PUSH` (R186, decision D8): the return address JSR pushes. -/
inductive JsrPush where
  /-- `PC` after both operand fetches (the default). -/
  | nextInstruction
  /-- One less than that. -/
  | lastByte
  deriving DecidableEq, Repr

/-- `EXIT_SAMPLE` (R91, R239, decision D16): where the Dispatcher looks at `exit_request`. -/
inductive ExitSample where
  /-- At the head of the loop, before the fetch (the default). -/
  | loopHead
  /-- Directly after the debug gate. -/
  | afterGate
  deriving DecidableEq, Repr

/-- One row of `OPTAB` (R7, R74): an opcode byte, the operation and addressing mode it identifies, the instruction's
length, and the total cycle count `N`, absent for BRK, which uses none. -/
structure OpRow where
  byte : Byte
  op : Op
  mode : Mode
  len : Nat
  cyc : Option Nat
  deriving DecidableEq, Repr

/-- `OPTAB` (R7): the opcode table is data, so that a corrected table takes its place without touching a rule (R74). -/
abbrev OpTable := List OpRow

/-- One value for each parameter whose choice changes what the engine does. -/
structure Config where
  /-- `OPTAB` (R7, R74; log entry 1). -/
  optab : OpTable
  carryRule : CarryRule
  sbcFlags : SbcFlags
  loadIncFlags : LoadIncFlags
  zpPtrWrap : ZpPtrWrap
  jsrPush : JsrPush
  exitSample : ExitSample
  deriving DecidableEq, Repr

end Sys2Proof
end

