-- ==== Sys2Proof/WellFormed.lean ====
section
/-! DEFINITION. What is well formed: an operation paired with a mode its rule admits, an opcode table made of such
pairs, a program image that fits, a debug command the port accepts. An operand needs no check of its own: its type is exactly its field (R73). -/

namespace Sys2Proof

/-- The modes each operation's own rule lists (R121 to R123, R131 to R133, R145, R147, R161 to R163, R170, R171,
R186, R187, R200). -/
def Op.modes : Op → List Mode
  | .lda => [.imm, .zp, .zpx, .abs, .abx, .aby, .izx, .izy]
  | .ldx => [.imm, .zp, .zpy, .abs, .aby]
  | .ldy => [.imm, .zp, .zpx, .abs, .abx]
  | .sta => [.zp, .zpx, .abs, .abx, .aby, .izx, .izy]
  | .stx => [.zp, .zpy, .abs]
  | .sty => [.zp, .zpx, .abs]
  | .adc => [.imm, .zp, .zpx, .abs, .abx, .aby, .izx, .izy]
  | .sbc => [.imm, .zp, .zpx, .abs, .abx, .aby, .izx, .izy]
  | .inc => [.zp, .zpx, .abs, .abx]
  | .inx => [.imp]
  | .iny => [.imp]
  | .sec => [.imp]
  | .clc => [.imp]
  | .jsr => [.abs]
  | .rts => [.imp]
  | .brk => [.imp]

/-- Whether the operation exists in the mode. -/
def Op.admits (op : Op) (mode : Mode) : Bool := op.modes.contains mode

/-- An instruction is well formed when its operation admits its mode. -/
def Instr.wellFormed (i : Instr) : Bool := i.op.admits i.mode

/-- A row of an opcode table has a handler: its operation's rule lists its mode, its length is that of the mode (R71),
and it has a cycle count, of at least the opcode fetch, unless it is BRK's (R74, R270; log entry 1). -/
def OpRow.wellFormed (r : OpRow) : Bool :=
  r.op.admits r.mode && r.len == 1 + r.mode.operandBytes &&
    match r.cyc with
    | none => r.op == .brk
    | some n => r.op != .brk && decide (1 ≤ n)

/-- An opcode table has a meaning when every row has a handler and no byte has two rows (R72: one lookup). -/
def OpTable.wellFormed (t : OpTable) : Bool := t.all OpRow.wellFormed && decide (t.map OpRow.byte).Nodup

/-- The parameters of a run (R7). -/
def Config.wellFormed (c : Config) : Bool := OpTable.wellFormed c.optab

/-- The longest program image that has a meaning: `0x10000 - 0x0200` bytes (R256). -/
def maxImageLength : Nat := 65024

/-- A program image the loader's contract covers (R256). -/
def imageWellFormed (image : List Byte) : Bool := decide (image.length ≤ maxImageLength)

/-- A debug command the port accepts: a `dump memory` bound above 0xFFFF, or a line that is no command, is a
MalformedDebugCommand (R240, decision D24). -/
def DebugCommand.wellFormed : DebugCommand → Bool
  | .step => true
  | .exit => true
  | .help => true
  | .dumpStack => true
  | .dumpMemory first last => decide (first ≤ 65535) && decide (last ≤ 65535)
  | .malformed => false

end Sys2Proof
end

