-- ==== Sys2Proof/Decode.lean ====
section
/-! DEFINITION. The default opcode table, the decoder over any table, and after it the encoder (30_encoding.md R70 to
R77). -/

namespace Sys2Proof

/-- `{hi, lo}`: the 16-bit value whose more significant byte is `hi` (R8, R73). -/
def joinBytes (hi lo : Byte) : Word := hi ++ lo

/-- `w[7:0]`. -/
def lowByte (w : Word) : Byte := w.extractLsb' 0 8

/-- `w[15:8]`. -/
def highByte (w : Word) : Byte := w.extractLsb' 8 8

/-- `OPTAB`, the rows of LDA, LDX, LDY (R74). -/
def loadRows : OpTable := [
  ⟨0xA9#8, .lda, .imm, 2, some 2⟩,
  ⟨0xA5#8, .lda, .zp, 2, some 3⟩,
  ⟨0xB5#8, .lda, .zpx, 2, some 4⟩,
  ⟨0xAD#8, .lda, .abs, 3, some 4⟩,
  ⟨0xBD#8, .lda, .abx, 3, some 4⟩,
  ⟨0xB9#8, .lda, .aby, 3, some 4⟩,
  ⟨0xA1#8, .lda, .izx, 2, some 6⟩,
  ⟨0xB1#8, .lda, .izy, 2, some 5⟩,
  ⟨0xA2#8, .ldx, .imm, 2, some 2⟩,
  ⟨0xA6#8, .ldx, .zp, 2, some 3⟩,
  ⟨0xB6#8, .ldx, .zpy, 2, some 4⟩,
  ⟨0xAE#8, .ldx, .abs, 3, some 4⟩,
  ⟨0xBE#8, .ldx, .aby, 3, some 4⟩,
  ⟨0xA0#8, .ldy, .imm, 2, some 2⟩,
  ⟨0xA4#8, .ldy, .zp, 2, some 3⟩,
  ⟨0xB4#8, .ldy, .zpx, 2, some 4⟩,
  ⟨0xAC#8, .ldy, .abs, 3, some 4⟩,
  ⟨0xBC#8, .ldy, .abx, 3, some 4⟩]

/-- `OPTAB`, the rows of STA, STX, STY (R74). -/
def storeRows : OpTable := [
  ⟨0x85#8, .sta, .zp, 2, some 3⟩,
  ⟨0x95#8, .sta, .zpx, 2, some 4⟩,
  ⟨0x8D#8, .sta, .abs, 3, some 4⟩,
  ⟨0x9D#8, .sta, .abx, 3, some 5⟩,
  ⟨0x99#8, .sta, .aby, 3, some 5⟩,
  ⟨0x81#8, .sta, .izx, 2, some 6⟩,
  ⟨0x91#8, .sta, .izy, 2, some 6⟩,
  ⟨0x86#8, .stx, .zp, 2, some 3⟩,
  ⟨0x96#8, .stx, .zpy, 2, some 4⟩,
  ⟨0x8E#8, .stx, .abs, 3, some 4⟩,
  ⟨0x84#8, .sty, .zp, 2, some 3⟩,
  ⟨0x94#8, .sty, .zpx, 2, some 4⟩,
  ⟨0x8C#8, .sty, .abs, 3, some 4⟩]

/-- `OPTAB`, the rows of ADC, SBC (R74). -/
def arithRows : OpTable := [
  ⟨0x69#8, .adc, .imm, 2, some 2⟩,
  ⟨0x65#8, .adc, .zp, 2, some 3⟩,
  ⟨0x75#8, .adc, .zpx, 2, some 4⟩,
  ⟨0x6D#8, .adc, .abs, 3, some 4⟩,
  ⟨0x7D#8, .adc, .abx, 3, some 4⟩,
  ⟨0x79#8, .adc, .aby, 3, some 4⟩,
  ⟨0x61#8, .adc, .izx, 2, some 6⟩,
  ⟨0x71#8, .adc, .izy, 2, some 5⟩,
  ⟨0xE9#8, .sbc, .imm, 2, some 2⟩,
  ⟨0xE5#8, .sbc, .zp, 2, some 3⟩,
  ⟨0xF5#8, .sbc, .zpx, 2, some 4⟩,
  ⟨0xED#8, .sbc, .abs, 3, some 4⟩,
  ⟨0xFD#8, .sbc, .abx, 3, some 4⟩,
  ⟨0xF9#8, .sbc, .aby, 3, some 4⟩,
  ⟨0xE1#8, .sbc, .izx, 2, some 6⟩,
  ⟨0xF1#8, .sbc, .izy, 2, some 5⟩]

/-- `OPTAB`, the rows of INC, INX, INY, SEC, CLC, JSR, RTS, BRK (R74). -/
def otherRows : OpTable := [
  ⟨0xE6#8, .inc, .zp, 2, some 5⟩,
  ⟨0xF6#8, .inc, .zpx, 2, some 6⟩,
  ⟨0xEE#8, .inc, .abs, 3, some 6⟩,
  ⟨0xFE#8, .inc, .abx, 3, some 7⟩,
  ⟨0xE8#8, .inx, .imp, 1, some 2⟩,
  ⟨0xC8#8, .iny, .imp, 1, some 2⟩,
  ⟨0x38#8, .sec, .imp, 1, some 2⟩,
  ⟨0x18#8, .clc, .imp, 1, some 2⟩,
  ⟨0x20#8, .jsr, .abs, 3, some 6⟩,
  ⟨0x60#8, .rts, .imp, 1, some 6⟩,
  ⟨0x00#8, .brk, .imp, 1, none⟩]

/-- The default of the parameter `OPTAB`, 58 rows (R7, R74; log entry 1). -/
def defaultOptab : OpTable := loadRows ++ storeRows ++ arithRows ++ otherRows

/-- The instruction an operation and a mode make of the two bytes after the opcode byte, of which it uses as many as the
mode has, an address low byte first (R71, R73); none where the operation's rule does not list the mode. -/
def Instr.ofParts (op : Op) (mode : Mode) (b1 b2 : Byte) : Option Instr :=
  match op, mode with
  | .lda, .imm => some (.ldaImm b1)
  | .lda, .zp => some (.ldaZp b1)
  | .lda, .zpx => some (.ldaZpx b1)
  | .lda, .abs => some (.ldaAbs (joinBytes b2 b1))
  | .lda, .abx => some (.ldaAbx (joinBytes b2 b1))
  | .lda, .aby => some (.ldaAby (joinBytes b2 b1))
  | .lda, .izx => some (.ldaIzx b1)
  | .lda, .izy => some (.ldaIzy b1)
  | .ldx, .imm => some (.ldxImm b1)
  | .ldx, .zp => some (.ldxZp b1)
  | .ldx, .zpy => some (.ldxZpy b1)
  | .ldx, .abs => some (.ldxAbs (joinBytes b2 b1))
  | .ldx, .aby => some (.ldxAby (joinBytes b2 b1))
  | .ldy, .imm => some (.ldyImm b1)
  | .ldy, .zp => some (.ldyZp b1)
  | .ldy, .zpx => some (.ldyZpx b1)
  | .ldy, .abs => some (.ldyAbs (joinBytes b2 b1))
  | .ldy, .abx => some (.ldyAbx (joinBytes b2 b1))
  | .sta, .zp => some (.staZp b1)
  | .sta, .zpx => some (.staZpx b1)
  | .sta, .abs => some (.staAbs (joinBytes b2 b1))
  | .sta, .abx => some (.staAbx (joinBytes b2 b1))
  | .sta, .aby => some (.staAby (joinBytes b2 b1))
  | .sta, .izx => some (.staIzx b1)
  | .sta, .izy => some (.staIzy b1)
  | .stx, .zp => some (.stxZp b1)
  | .stx, .zpy => some (.stxZpy b1)
  | .stx, .abs => some (.stxAbs (joinBytes b2 b1))
  | .sty, .zp => some (.styZp b1)
  | .sty, .zpx => some (.styZpx b1)
  | .sty, .abs => some (.styAbs (joinBytes b2 b1))
  | .adc, .imm => some (.adcImm b1)
  | .adc, .zp => some (.adcZp b1)
  | .adc, .zpx => some (.adcZpx b1)
  | .adc, .abs => some (.adcAbs (joinBytes b2 b1))
  | .adc, .abx => some (.adcAbx (joinBytes b2 b1))
  | .adc, .aby => some (.adcAby (joinBytes b2 b1))
  | .adc, .izx => some (.adcIzx b1)
  | .adc, .izy => some (.adcIzy b1)
  | .sbc, .imm => some (.sbcImm b1)
  | .sbc, .zp => some (.sbcZp b1)
  | .sbc, .zpx => some (.sbcZpx b1)
  | .sbc, .abs => some (.sbcAbs (joinBytes b2 b1))
  | .sbc, .abx => some (.sbcAbx (joinBytes b2 b1))
  | .sbc, .aby => some (.sbcAby (joinBytes b2 b1))
  | .sbc, .izx => some (.sbcIzx b1)
  | .sbc, .izy => some (.sbcIzy b1)
  | .inc, .zp => some (.incZp b1)
  | .inc, .zpx => some (.incZpx b1)
  | .inc, .abs => some (.incAbs (joinBytes b2 b1))
  | .inc, .abx => some (.incAbx (joinBytes b2 b1))
  | .inx, .imp => some .inx
  | .iny, .imp => some .iny
  | .sec, .imp => some .sec
  | .clc, .imp => some .clc
  | .jsr, .abs => some (.jsr (joinBytes b2 b1))
  | .rts, .imp => some .rts
  | .brk, .imp => some .brk
  | _, _ => none

/-- The one lookup the engine makes of an opcode byte (R72, R77): the row of the table that has the byte and a handler
(R94, R76; log entry 1). -/
def lookupOpcode (t : OpTable) (b : Byte) : Option OpRow := t.find? (fun r => r.byte == b && r.wellFormed)

/-- What the decoder reads from an instruction's bytes: an instruction, or the rejection of the opcode byte (R76). -/
inductive Decoded where
  | instr (i : Instr)
  | unrecognized (byte : Byte)
  deriving DecidableEq, Repr

/-- Decode, by a table, the opcode byte `b0` and the two bytes after it; bytes beyond the instruction's length play no
part (R71, R73, R76). -/
def decodeBytesIn (t : OpTable) (b0 b1 b2 : Byte) : Decoded :=
  match (lookupOpcode t b0).bind (fun r => Instr.ofParts r.op r.mode b1 b2) with
  | some i => .instr i
  | none => .unrecognized b0

/-- Decode three bytes by the default table. -/
def decodeBytes (b0 b1 b2 : Byte) : Decoded := decodeBytesIn defaultOptab b0 b1 b2

/-- What the decoder reads from a byte stream: an instruction and the rest of the stream, or why there is none. -/
inductive StreamDecoded where
  | instr (i : Instr) (rest : List Byte)
  /-- The opcode byte has no row (R76). -/
  | unrecognized (byte : Byte)
  /-- The stream ends inside the instruction (only a finite stream can; memory wraps, R22). -/
  | truncated
  deriving DecidableEq, Repr

/-- Decode, by a table, the first instruction of a byte stream: look the opcode byte up and skip `len` bytes (R77). -/
def decodeIn (t : OpTable) : List Byte → StreamDecoded
  | [] => .truncated
  | b0 :: rest =>
    match lookupOpcode t b0 with
    | none => .unrecognized b0
    | some r =>
      if rest.length < r.len - 1 then .truncated
      else
        match Instr.ofParts r.op r.mode (rest.getD 0 0#8) (rest.getD 1 0#8) with
        | some i => .instr i (rest.drop (r.len - 1))
        | none => .unrecognized b0

/-- Decode a byte stream by the default table. -/
def decode (stream : List Byte) : StreamDecoded := decodeIn defaultOptab stream

/-- The instruction the decoder reads from a table word: byte `k` of the instruction is bits `8k+7..8k` of `w`, and
every bit from `nbits` up is 0. -/
def decodeTableWord (nbits w : Nat) : Option Instr :=
  let v := w % 2 ^ nbits
  match decodeBytes (BitVec.ofNat 8 v) (BitVec.ofNat 8 (v / 256)) (BitVec.ofNat 8 (v / 65536)) with
  | .instr i => some i
  | .unrecognized _ => none

/-- The bytes of an instruction after its opcode byte, in address order, an address low byte first (R71, R73). -/
def Instr.operandFields : Instr → List Byte
  | .ldaImm value => [value]
  | .ldaZp zp => [zp]
  | .ldaZpx zp => [zp]
  | .ldaAbs addr => [lowByte addr, highByte addr]
  | .ldaAbx addr => [lowByte addr, highByte addr]
  | .ldaAby addr => [lowByte addr, highByte addr]
  | .ldaIzx zp => [zp]
  | .ldaIzy zp => [zp]
  | .ldxImm value => [value]
  | .ldxZp zp => [zp]
  | .ldxZpy zp => [zp]
  | .ldxAbs addr => [lowByte addr, highByte addr]
  | .ldxAby addr => [lowByte addr, highByte addr]
  | .ldyImm value => [value]
  | .ldyZp zp => [zp]
  | .ldyZpx zp => [zp]
  | .ldyAbs addr => [lowByte addr, highByte addr]
  | .ldyAbx addr => [lowByte addr, highByte addr]
  | .staZp zp => [zp]
  | .staZpx zp => [zp]
  | .staAbs addr => [lowByte addr, highByte addr]
  | .staAbx addr => [lowByte addr, highByte addr]
  | .staAby addr => [lowByte addr, highByte addr]
  | .staIzx zp => [zp]
  | .staIzy zp => [zp]
  | .stxZp zp => [zp]
  | .stxZpy zp => [zp]
  | .stxAbs addr => [lowByte addr, highByte addr]
  | .styZp zp => [zp]
  | .styZpx zp => [zp]
  | .styAbs addr => [lowByte addr, highByte addr]
  | .adcImm value => [value]
  | .adcZp zp => [zp]
  | .adcZpx zp => [zp]
  | .adcAbs addr => [lowByte addr, highByte addr]
  | .adcAbx addr => [lowByte addr, highByte addr]
  | .adcAby addr => [lowByte addr, highByte addr]
  | .adcIzx zp => [zp]
  | .adcIzy zp => [zp]
  | .sbcImm value => [value]
  | .sbcZp zp => [zp]
  | .sbcZpx zp => [zp]
  | .sbcAbs addr => [lowByte addr, highByte addr]
  | .sbcAbx addr => [lowByte addr, highByte addr]
  | .sbcAby addr => [lowByte addr, highByte addr]
  | .sbcIzx zp => [zp]
  | .sbcIzy zp => [zp]
  | .incZp zp => [zp]
  | .incZpx zp => [zp]
  | .incAbs addr => [lowByte addr, highByte addr]
  | .incAbx addr => [lowByte addr, highByte addr]
  | .inx => []
  | .iny => []
  | .sec => []
  | .clc => []
  | .jsr addr => [lowByte addr, highByte addr]
  | .rts => []
  | .brk => []

/-- The row an instruction is encoded by: the first of the table with its operation and mode. -/
def rowOf (t : OpTable) (i : Instr) : Option OpRow :=
  t.find? (fun r => r.op == i.op && r.mode == i.mode && r.wellFormed)

/-- The bytes of an instruction by a table: its row's opcode byte and its operand bytes (R70); none where the table has no
such row. -/
def encodeIn (t : OpTable) (i : Instr) : Option (List Byte) := (rowOf t i).map fun r => r.byte :: i.operandFields

/-- The bytes of an instruction by the default table, which has a row for each. -/
def encode (i : Instr) : List Byte := (encodeIn defaultOptab i).getD []

end Sys2Proof
end

