-- ==== Sys2Proof/Machine/Params.lean ====
section
/-! DEFINITION. The constants of 00_scope.md R7 and the default value of every parameter (log entry 2). -/

namespace Sys2Proof.Machine

/-- `BASE`: where the program image starts and what `PC` resets to (R7, R251). -/
def base : Word := 0x0200#16

/-- `SP_RESET` (R7, R33). -/
def spReset : Byte := 0xFF#8

/-- `STACK_PAGE` (R7, decision D6). -/
def stackPage : Word := 0x0100#16

/-- The default of every parameter (R7). -/
def defaultConfig : Config where
  optab := defaultOptab
  carryRule := .msbXor
  sbcFlags := .uniformRawOperand
  loadIncFlags := .zn
  zpPtrWrap := .wrap8
  jsrPush := .nextInstruction
  exitSample := .loopHead

end Sys2Proof.Machine
end

