-- ==== Sys2Proof/Machine/State.lean ====
section
/-! DEFINITION. The whole state of the engine (10_state.md R20 to R34), the reasons a step can stop, and the state
after creation. -/

namespace Sys2Proof.Machine

/-- The seven independent one-bit flags (R25); there is no packed status register. -/
structure Flags where
  /-- Carry. -/
  c : Bool
  /-- Zero. -/
  z : Bool
  /-- Interrupt-disable: stored, written and read by nothing (R26). -/
  i : Bool
  /-- Decimal: stored, written and read by nothing (R26). -/
  d : Bool
  /-- Break: stored, written and read by nothing (R26). -/
  b : Bool
  /-- Overflow. -/
  v : Bool
  /-- Negative. -/
  n : Bool
  deriving DecidableEq, Repr

/-- `halt_reason` (R28, R210). -/
inductive HaltReason where
  /-- Not halted (code 0). -/
  | running
  /-- The break opcode was fetched (code 1). -/
  | breakOpcode
  /-- A byte with no row was fetched as an opcode (code 2). -/
  | unrecognizedOpcode
  /-- The exit command was given at a pause (code 3). -/
  | debugExit
  deriving DecidableEq, Repr

/-- The three general registers (R20). -/
inductive Reg where
  | a | x | y
  deriving DecidableEq, Repr

/-- Everything the engine holds. -/
structure State where
  /-- The accumulator `A` (R20). -/
  a : Byte
  /-- The index register `X` (R20). -/
  x : Byte
  /-- The index register `Y` (R20). -/
  y : Byte
  /-- The program counter `PC` (R22). -/
  pc : Word
  /-- The stack pointer `SP` (R24). -/
  sp : Byte
  /-- The flags (R25). -/
  flags : Flags
  /-- The 65536-byte store (R50). -/
  mem : Memory
  /-- `cycles_remaining`, a signed counter (R27, R230). -/
  cyclesRemaining : Int
  /-- `halted` (R28). -/
  halted : Bool
  /-- `halt_reason` (R28). -/
  haltReason : HaltReason
  /-- `fault_byte`, absent until an UnrecognizedOpcode halt (R28, R33). -/
  faultByte : Option Byte
  /-- `fault_addr`, absent until an UnrecognizedOpcode halt (R28, R33). -/
  faultAddr : Option Word
  /-- `exit_request` (R29). -/
  exitRequest : Bool
  /-- `paused` (R29, R235). -/
  paused : Bool
  /-- `DEBUG_ENABLE`, fixed by the host before the run, never written by the engine (R29; log entry 3). -/
  debugEnable : Bool
  /-- The model's own: what the operator has typed at the debug port and the gate has not yet read (log entry 4). -/
  debugInput : List DebugCommand
  /-- The model's own: the engine's parameters, fixed for the run, never written by the engine (R7; log entry 2). -/
  config : Config
  deriving DecidableEq, Repr

/-- The reasons a step stops outside the model. There are none: a step never fails part-way (R97), and the engine's
one failure, UnrecognizedOpcode, is a halted next state whose latches hold the report (R212; log entry 7). Nothing
raises a fault, which is safe or unsafe for no claim. -/
inductive Fault where
  deriving DecidableEq, Repr

/-- The reasons the model has no answer. -/
inductive Refusal where
  /-- Raised by an arm of `exec` whose instruction has no meaning yet; no arm does so now. Safe: the run stops. -/
  | notModelled (mnemonic : String)
  /-- Raised by `loadImage` (Machine/Boot.lean) alone, for an image of more than 65024 bytes, to which R256 gives no
  meaning (decision D19). Safe: no run starts. -/
  | imageTooLong
  /-- Raised by `launch` (Machine/Boot.lean) alone, for an opcode table with a row that no instruction rule gives a handler
  or with two rows for one byte (log entry 1). Safe: no run starts. -/
  | opcodeTableIllFormed
  deriving DecidableEq, Repr

/-- Every flag 0. -/
def Flags.clear : Flags := ⟨false, false, false, false, false, false, false⟩

/-- The engine right after creation (R33, R250), nothing loaded. `DEBUG_ENABLE` is the host's choice, off here (log
entry 3); the operator has typed nothing (log entry 4); the parameters have their defaults (log entry 2). -/
def State.reset : State where
  a := 0x00#8
  x := 0x00#8
  y := 0x00#8
  pc := base
  sp := spReset
  flags := Flags.clear
  mem := []
  cyclesRemaining := 0
  halted := false
  haltReason := .running
  faultByte := none
  faultAddr := none
  exitRequest := false
  paused := false
  debugEnable := false
  debugInput := []
  config := defaultConfig

end Sys2Proof.Machine
end

