-- ==== Sys2Proof/Machine/Ops.lean ====
section
/-! DEFINITION. The named operations over the state: one setter per field or group of fields, memory access (00_scope.md
R10), the cycle countdown (R27, R271), the stack (47_subroutine.md R181 to R185), and halting, the engine's whole
exception mechanism (60_exceptions.md R210 to R219). -/

namespace Sys2Proof.Machine

/-- `zext_16` (R8). -/
def zext16 (v : Byte) : Word := v.setWidth 16

/-- Read a general register: each has one home and no alias (R20). -/
def State.reg (s : State) : Reg → Byte
  | .a => s.a
  | .x => s.x
  | .y => s.y

/-- `r <- v` for a general register. -/
def State.setReg (s : State) (r : Reg) (v : Byte) : State :=
  match r with
  | .a => { s with a := v }
  | .x => { s with x := v }
  | .y => { s with y := v }

/-- `pc <- target`. -/
def State.setPC (s : State) (target : Word) : State := { s with pc := target }

def State.setSP (s : State) (v : Byte) : State := { s with sp := v }

def State.setFlags (s : State) (f : Flags) : State := { s with flags := f }

def State.setMem (s : State) (m : Memory) : State := { s with mem := m }

def State.setCycles (s : State) (n : Int) : State := { s with cyclesRemaining := n }

def State.setExitRequest (s : State) (b : Bool) : State := { s with exitRequest := b }

def State.setPaused (s : State) (b : Bool) : State := { s with paused := b }

def State.setDebugInput (s : State) (q : List DebugCommand) : State := { s with debugInput := q }

/-- `halt(reason)`: the run ends; nothing else changes (R11, R211, R213). -/
def State.halt (s : State) (reason : HaltReason) : State := { s with halted := true, haltReason := reason }

/-- The code the status interface gives a halt reason (R210, decision D17). -/
def HaltReason.code : HaltReason → Nat
  | .running => 0
  | .breakOpcode => 1
  | .unrecognizedOpcode => 2
  | .debugExit => 3

/-- The two report latches of an UnrecognizedOpcode (R28). -/
def State.setReport (s : State) (byte : Byte) (addr : Word) : State :=
  { s with faultByte := some byte, faultAddr := some addr }

/-- `MemRead(addr, 1)` in a state (R10, R63: the one memory there is). -/
def State.readByte (s : State) (addr : Word) : Byte := s.mem.read addr

/-- `MemWrite(addr, 1, v)` in a state (R10). -/
def State.writeByte (s : State) (addr : Word) (v : Byte) : State := s.setMem (s.mem.write addr v)

/-- `n` cycle-consuming events: the countdown goes down by `n` (R27, R271). -/
def State.consume (s : State) (n : Nat) : State := s.setCycles (s.cyclesRemaining - (n : Int))

/-- The opcode fetch's effect: `PC` moves past the opcode byte and no cycle is consumed (R92). -/
def State.fetchOpcode (s : State) : State := s.setPC (s.pc + 1#16)

/-- The fetches of `n` operand bytes: each adds 1 to `PC` and consumes one cycle (R10, R23, R271). Their values are in
the decoded instruction, read from the bytes at `PC` before anything of the instruction is written (log entry 8). -/
def State.fetchOperands (s : State) (n : Nat) : State := (s.setPC (s.pc + BitVec.ofNat 16 n)).consume n

/-- The memory cell a stack pointer names: `0x0100 + SP` (R24, R181). -/
def stackCell (sp : Byte) : Word := stackPage + zext16 sp

/-- `push_byte(v)` (R181): the cell `SP` names is written, then `SP` goes down by 1 modulo 256; one cycle. -/
def State.pushByte (s : State) (v : Byte) : State :=
  ((s.writeByte (stackCell s.sp) v).setSP (s.sp - 1#8)).consume 1

/-- `pop_byte()` (R182): `SP` goes up by 1 modulo 256, then the cell it names is read; one cycle. -/
def State.popByte (s : State) : Byte × State :=
  (s.readByte (stackCell (s.sp + 1#8)), (s.setSP (s.sp + 1#8)).consume 1)

/-- `push_word(w)` (R184): the low byte first, so it lies at the higher address. -/
def State.pushWord (s : State) (w : Word) : State := (s.pushByte (lowByte w)).pushByte (highByte w)

/-- `pop_word()` (R185): the high byte first. -/
def State.popWord (s : State) : Word × State :=
  let hi := s.popByte
  let lo := hi.2.popByte
  (joinBytes hi.1 lo.1, lo.2)

/-- `raise UnrecognizedOpcode(byte, addr)` (R11, R212, R218): taking the engine's one exception. Both report latches
are written and the run ends; nothing is pushed, no mode or mask changes, no vector is read and control goes nowhere. There
is no return from it (R219), so no operation for one. -/
def raiseUnrecognizedOpcode (byte : Byte) (addr : Word) (s : State) : State :=
  (s.setReport byte addr).halt .unrecognizedOpcode

end Sys2Proof.Machine
end

