-- ==== Sys2Proof/Machine/Flags.lean ====
section
/-! DEFINITION. Every flag the engine computes: `SetZN` (42_load.md R120) and the arithmetic unit (44_add_subtract.md
R140 to R146), under every value of the parameters. -/

namespace Sys2Proof.Machine

/-- A bit as a number. -/
def bit (b : Bool) : Nat := if b then 1 else 0

/-- `SetZN(v)` (R120), which `LOAD_INC_FLAGS = none` takes away. -/
def Flags.setZN (f : Flags) (mode : LoadIncFlags) (v : Byte) : Flags :=
  match mode with
  | .zn => { f with z := v == 0#8, n := v.msb }
  | .none => f

/-- `SetZN(v)` in a state. -/
def State.setZN (s : State) (v : Byte) : State := s.setFlags (s.flags.setZN s.config.loadIncFlags v)

/-- `R <- (A + M + Cin) mod 256` (R141). -/
def addResult (a m : Byte) (cin : Bool) : Byte := a + m + BitVec.ofNat 8 (bit cin)

/-- `R <- (A - M - (1 - Cin)) mod 256` (R146): carry in means no borrow. -/
def subResult (a m : Byte) (cin : Bool) : Byte := a - m - BitVec.ofNat 8 (1 - bit cin)

/-- `A[7] ^ R[7]`, the sign-bit carry (R142). -/
def signCarry (a r : Byte) : Bool := a.msb ^^ r.msb

/-- `(!(A[7] ^ M[7])) & (A[7] ^ R[7])`, the add overflow formula (R143). -/
def signOverflow (a m r : Byte) : Bool := !(a.msb ^^ m.msb) && (a.msb ^^ r.msb)

/-- The carry ADC writes (R142). -/
def addCarry (rule : CarryRule) (a m : Byte) (cin : Bool) : Bool :=
  match rule with
  | .msbXor => signCarry a (addResult a m cin)
  | .bit8 => decide (256 ≤ a.toNat + m.toNat + bit cin)

/-- The carry SBC writes (R146, decision D11). -/
def subCarry (rule : SbcFlags) (a m : Byte) (cin : Bool) : Bool :=
  match rule with
  | .uniformRawOperand => signCarry a (subResult a m cin)
  | .uniformComplementedOperand => signCarry a (subResult a m cin)
  | .mos => decide (m.toNat + (1 - bit cin) ≤ a.toNat)

/-- The overflow SBC writes (R146, decision D11). -/
def subOverflow (rule : SbcFlags) (a m : Byte) (cin : Bool) : Bool :=
  match rule with
  | .uniformRawOperand => signOverflow a m (subResult a m cin)
  | .uniformComplementedOperand => signOverflow a (~~~m) (subResult a m cin)
  | .mos => (a.msb ^^ m.msb) && (a.msb ^^ (subResult a m cin).msb)

/-- The flags the arithmetic unit leaves: `C` and `V` as given, `Z` and `N` from the result (R144); the others stay. -/
def Flags.arith (f : Flags) (c v : Bool) (r : Byte) : Flags :=
  { f with c := c, v := v, z := r == 0#8, n := r.msb }

/-- ADC's work on an operand (R145): the four flags from the old `A`, then `A`. -/
def State.addOperand (s : State) (m : Byte) : State :=
  let r := addResult s.a m s.flags.c
  (s.setFlags (s.flags.arith (addCarry s.config.carryRule s.a m s.flags.c)
    (signOverflow s.a m r) r)).setReg .a r

/-- SBC's work on an operand (R147): the four flags from the old `A`, then `A`. -/
def State.subOperand (s : State) (m : Byte) : State :=
  let r := subResult s.a m s.flags.c
  (s.setFlags (s.flags.arith (subCarry s.config.sbcFlags s.a m s.flags.c)
    (subOverflow s.config.sbcFlags s.a m s.flags.c) r)).setReg .a r

end Sys2Proof.Machine
end

