-- ==== Sys2Proof/Machine/Operands.lean ====
section
/-! DEFINITION. The addressing-mode resolver (41_addressing.md R100 to R113) and its cycle events (R271). -/

namespace Sys2Proof.Machine

/-- The eight modes that yield an effective address, with their operand (R103 to R111). -/
inductive MemOperand where
  | zp (zp : Byte)
  | zpx (zp : Byte)
  | zpy (zp : Byte)
  | abs (addr : Word)
  | abx (addr : Word)
  | aby (addr : Word)
  | izx (zp : Byte)
  | izy (zp : Byte)
  deriving DecidableEq, Repr

/-- What an instruction reads: an inline byte (R102) or the byte at an effective address (R100). -/
inductive Operand where
  | imm (value : Byte)
  | mem (m : MemOperand)
  deriving DecidableEq, Repr

/-- What an instruction does at the effective address: a read, a write, or INC's read and write. Only the cycle events
depend on it (R271). -/
inductive Access where
  | read | write | modify
  deriving DecidableEq, Repr

/-- Where Indirect,X finds its pointer's low byte: `(zp + X) mod 256` in the zero page, or the plain 16-bit sum (R110). -/
def pointerX (wrap : ZpPtrWrap) (zp x : Byte) : Word :=
  match wrap with
  | .wrap8 => zext16 (zp + x)
  | .plain16 => zext16 zp + zext16 x

/-- Where a pointer at `p` has its high byte: `(p + 1) mod 256` in the zero page, or one above (R109). -/
def pointerHigh (wrap : ZpPtrWrap) (p : Word) : Word :=
  match wrap with
  | .wrap8 => zext16 (lowByte p + 1#8)
  | .plain16 => p + 1#16

/-- `ReadPtr(p)` (R109): the low byte, then the high byte. -/
def State.readPointer (s : State) (p : Word) : Word :=
  joinBytes (s.readByte (pointerHigh s.config.zpPtrWrap p)) (s.readByte p)

/-- The effective address of each mode (R103 to R111, R113). -/
def MemOperand.ea (m : MemOperand) (s : State) : Word :=
  match m with
  | .zp p => zext16 p
  | .zpx p => zext16 p + zext16 s.x
  | .zpy p => zext16 p + zext16 s.y
  | .abs addr => addr
  | .abx addr => addr + zext16 s.x
  | .aby addr => addr + zext16 s.y
  | .izx p => s.readPointer (pointerX s.config.zpPtrWrap p s.x)
  | .izy p => s.readPointer (zext16 p) + zext16 s.y

/-- Operand bytes of each mode (R113). -/
def MemOperand.operandBytes : MemOperand → Nat
  | .zp _ => 1
  | .zpx _ => 1
  | .zpy _ => 1
  | .abs _ => 2
  | .abx _ => 2
  | .aby _ => 2
  | .izx _ => 1
  | .izy _ => 1

/-- The events of a mode beyond its operand fetches: index adds and pointer reads (R271). -/
def MemOperand.extraEvents (m : MemOperand) (acc : Access) : Nat :=
  match m, acc with
  | .zp _, _ => 0
  | .zpx _, _ => 1
  | .zpy _, _ => 1
  | .abs _, _ => 0
  | .abx _, .read => 0
  | .abx _, .write => 1
  | .abx _, .modify => 1
  | .aby _, .read => 0
  | .aby _, .write => 1
  | .aby _, .modify => 1
  | .izx _, _ => 3
  | .izy _, .read => 2
  | .izy _, .write => 3
  | .izy _, .modify => 3

/-- Resolve a mode: the effective address, and the state with `PC` past the operand bytes. It writes no register but
`PC`, no memory and no flag (R100). -/
def resolve (m : MemOperand) (acc : Access) (s : State) : Word × State :=
  (m.ea s, (s.fetchOperands m.operandBytes).consume (m.extraEvents acc))

/-- The operand a load, add or subtract works on: the inline byte, or the data read at the effective address (R100,
R120, R140). -/
def readOperand (o : Operand) (s : State) : Byte × State :=
  match o with
  | .imm value => (value, s.fetchOperands 1)
  | .mem m =>
    let r := resolve m .read s
    (r.2.readByte r.1, r.2.consume 1)

end Sys2Proof.Machine
end

