-- ==== Sys2Proof/Machine/Arith.lean ====
section
/-! DEFINITION. Add and subtract with carry, ADC and SBC (44_add_subtract.md R140 to R147). -/

namespace Sys2Proof.Machine

/-- ADC on an operand (R145). -/
def addWithCarry (o : Operand) (s : State) : Host.Outcome State Fault Refusal :=
  let v := readOperand o s
  .next (v.2.addOperand v.1)

/-- SBC on an operand (R147). -/
def subtractWithCarry (o : Operand) (s : State) : Host.Outcome State Fault Refusal :=
  let v := readOperand o s
  .next (v.2.subOperand v.1)

/-- ADC IMM (R145, R102). -/
def execAdcImm (value : Byte) (s : State) : Host.Outcome State Fault Refusal := addWithCarry (.imm value) s

/-- ADC ZP (R145, R103). -/
def execAdcZp (zp : Byte) (s : State) : Host.Outcome State Fault Refusal := addWithCarry (.mem (.zp zp)) s

/-- ADC ZPX (R145, R104). -/
def execAdcZpx (zp : Byte) (s : State) : Host.Outcome State Fault Refusal := addWithCarry (.mem (.zpx zp)) s

/-- ADC ABS (R145, R106). -/
def execAdcAbs (addr : Word) (s : State) : Host.Outcome State Fault Refusal := addWithCarry (.mem (.abs addr)) s

/-- ADC ABX (R145, R107). -/
def execAdcAbx (addr : Word) (s : State) : Host.Outcome State Fault Refusal := addWithCarry (.mem (.abx addr)) s

/-- ADC ABY (R145, R108). -/
def execAdcAby (addr : Word) (s : State) : Host.Outcome State Fault Refusal := addWithCarry (.mem (.aby addr)) s

/-- ADC IZX (R145, R110). -/
def execAdcIzx (zp : Byte) (s : State) : Host.Outcome State Fault Refusal := addWithCarry (.mem (.izx zp)) s

/-- ADC IZY (R145, R111). -/
def execAdcIzy (zp : Byte) (s : State) : Host.Outcome State Fault Refusal := addWithCarry (.mem (.izy zp)) s

/-- SBC IMM (R147, R102). -/
def execSbcImm (value : Byte) (s : State) : Host.Outcome State Fault Refusal := subtractWithCarry (.imm value) s

/-- SBC ZP (R147, R103). -/
def execSbcZp (zp : Byte) (s : State) : Host.Outcome State Fault Refusal := subtractWithCarry (.mem (.zp zp)) s

/-- SBC ZPX (R147, R104). -/
def execSbcZpx (zp : Byte) (s : State) : Host.Outcome State Fault Refusal := subtractWithCarry (.mem (.zpx zp)) s

/-- SBC ABS (R147, R106). -/
def execSbcAbs (addr : Word) (s : State) : Host.Outcome State Fault Refusal := subtractWithCarry (.mem (.abs addr)) s

/-- SBC ABX (R147, R107). -/
def execSbcAbx (addr : Word) (s : State) : Host.Outcome State Fault Refusal := subtractWithCarry (.mem (.abx addr)) s

/-- SBC ABY (R147, R108). -/
def execSbcAby (addr : Word) (s : State) : Host.Outcome State Fault Refusal := subtractWithCarry (.mem (.aby addr)) s

/-- SBC IZX (R147, R110). -/
def execSbcIzx (zp : Byte) (s : State) : Host.Outcome State Fault Refusal := subtractWithCarry (.mem (.izx zp)) s

/-- SBC IZY (R147, R111). -/
def execSbcIzy (zp : Byte) (s : State) : Host.Outcome State Fault Refusal := subtractWithCarry (.mem (.izy zp)) s

end Sys2Proof.Machine
end

