-- ==== Sys2Proof/Machine/CarryFlag.lean ====
section
/-! DEFINITION. The carry-flag instructions SEC and CLC (46_carry_flag.md R170 to R172). -/

namespace Sys2Proof.Machine

/-- Write `C` and no other flag (R170, R171). -/
def writeCarry (c : Bool) (s : State) : Host.Outcome State Fault Refusal :=
  .next ((s.setFlags { s.flags with c := c }).consume 1)

/-- SEC IMP (R170, R101). -/
def execSec (s : State) : Host.Outcome State Fault Refusal := writeCarry true s

/-- CLC IMP (R171, R101). -/
def execClc (s : State) : Host.Outcome State Fault Refusal := writeCarry false s

end Sys2Proof.Machine
end

