-- ==== Sys2Proof/Machine/Increment.lean ====
section
/-! DEFINITION. The increments INC, INX, INY (45_increment.md R160 to R163). -/

namespace Sys2Proof.Machine

/-- INC at an effective address (R161): the read, the add, the one write, then `SetZN`. -/
def incrementMemory (m : MemOperand) (s : State) : Host.Outcome State Fault Refusal :=
  let t := resolve m .modify s
  let r := t.2.readByte t.1 + 1#8
  .next (((t.2.writeByte t.1 r).consume 3).setZN r)

/-- INX and INY (R162, R163): the register plus 1 modulo 256, then `SetZN`. -/
def incrementRegister (r : Reg) (s : State) : Host.Outcome State Fault Refusal :=
  let v := s.reg r + 1#8
  .next (((s.setReg r v).consume 1).setZN v)

/-- INC ZP (R161, R103). -/
def execIncZp (zp : Byte) (s : State) : Host.Outcome State Fault Refusal := incrementMemory (.zp zp) s

/-- INC ZPX (R161, R104). -/
def execIncZpx (zp : Byte) (s : State) : Host.Outcome State Fault Refusal := incrementMemory (.zpx zp) s

/-- INC ABS (R161, R106). -/
def execIncAbs (addr : Word) (s : State) : Host.Outcome State Fault Refusal := incrementMemory (.abs addr) s

/-- INC ABX (R161, R107). -/
def execIncAbx (addr : Word) (s : State) : Host.Outcome State Fault Refusal := incrementMemory (.abx addr) s

/-- INX IMP (R162, R101). -/
def execInx (s : State) : Host.Outcome State Fault Refusal := incrementRegister .x s

/-- INY IMP (R163, R101). -/
def execIny (s : State) : Host.Outcome State Fault Refusal := incrementRegister .y s

end Sys2Proof.Machine
end

