-- ==== Sys2Proof/Machine/Load.lean ====
section
/-! DEFINITION. The load-register family LDA, LDX, LDY (42_load.md R120 to R123). -/

namespace Sys2Proof.Machine

/-- A load (R120): the operand is copied unchanged into the register, and `SetZN` follows. -/
def loadRegister (r : Reg) (o : Operand) (s : State) : Host.Outcome State Fault Refusal :=
  let v := readOperand o s
  .next ((v.2.setReg r v.1).setZN v.1)

/-- LDA IMM (R121, R102). -/
def execLdaImm (value : Byte) (s : State) : Host.Outcome State Fault Refusal := loadRegister .a (.imm value) s

/-- LDA ZP (R121, R103). -/
def execLdaZp (zp : Byte) (s : State) : Host.Outcome State Fault Refusal := loadRegister .a (.mem (.zp zp)) s

/-- LDA ZPX (R121, R104). -/
def execLdaZpx (zp : Byte) (s : State) : Host.Outcome State Fault Refusal := loadRegister .a (.mem (.zpx zp)) s

/-- LDA ABS (R121, R106). -/
def execLdaAbs (addr : Word) (s : State) : Host.Outcome State Fault Refusal := loadRegister .a (.mem (.abs addr)) s

/-- LDA ABX (R121, R107). -/
def execLdaAbx (addr : Word) (s : State) : Host.Outcome State Fault Refusal := loadRegister .a (.mem (.abx addr)) s

/-- LDA ABY (R121, R108). -/
def execLdaAby (addr : Word) (s : State) : Host.Outcome State Fault Refusal := loadRegister .a (.mem (.aby addr)) s

/-- LDA IZX (R121, R110). -/
def execLdaIzx (zp : Byte) (s : State) : Host.Outcome State Fault Refusal := loadRegister .a (.mem (.izx zp)) s

/-- LDA IZY (R121, R111). -/
def execLdaIzy (zp : Byte) (s : State) : Host.Outcome State Fault Refusal := loadRegister .a (.mem (.izy zp)) s

/-- LDX IMM (R122, R102). -/
def execLdxImm (value : Byte) (s : State) : Host.Outcome State Fault Refusal := loadRegister .x (.imm value) s

/-- LDX ZP (R122, R103). -/
def execLdxZp (zp : Byte) (s : State) : Host.Outcome State Fault Refusal := loadRegister .x (.mem (.zp zp)) s

/-- LDX ZPY (R122, R105). -/
def execLdxZpy (zp : Byte) (s : State) : Host.Outcome State Fault Refusal := loadRegister .x (.mem (.zpy zp)) s

/-- LDX ABS (R122, R106). -/
def execLdxAbs (addr : Word) (s : State) : Host.Outcome State Fault Refusal := loadRegister .x (.mem (.abs addr)) s

/-- LDX ABY (R122, R108). -/
def execLdxAby (addr : Word) (s : State) : Host.Outcome State Fault Refusal := loadRegister .x (.mem (.aby addr)) s

/-- LDY IMM (R123, R102). -/
def execLdyImm (value : Byte) (s : State) : Host.Outcome State Fault Refusal := loadRegister .y (.imm value) s

/-- LDY ZP (R123, R103). -/
def execLdyZp (zp : Byte) (s : State) : Host.Outcome State Fault Refusal := loadRegister .y (.mem (.zp zp)) s

/-- LDY ZPX (R123, R104). -/
def execLdyZpx (zp : Byte) (s : State) : Host.Outcome State Fault Refusal := loadRegister .y (.mem (.zpx zp)) s

/-- LDY ABS (R123, R106). -/
def execLdyAbs (addr : Word) (s : State) : Host.Outcome State Fault Refusal := loadRegister .y (.mem (.abs addr)) s

/-- LDY ABX (R123, R107). -/
def execLdyAbx (addr : Word) (s : State) : Host.Outcome State Fault Refusal := loadRegister .y (.mem (.abx addr)) s

end Sys2Proof.Machine
end

