-- ==== Sys2Proof/Machine/Store.lean ====
section
/-! DEFINITION. The store-register family STA, STX, STY (43_store.md R130 to R133). -/

namespace Sys2Proof.Machine

/-- A store (R130): the register is written as one byte at the effective address; no register and no flag changes. -/
def storeRegister (r : Reg) (m : MemOperand) (s : State) : Host.Outcome State Fault Refusal :=
  let t := resolve m .write s
  .next ((t.2.writeByte t.1 (s.reg r)).consume 1)

/-- STA ZP (R131, R103). -/
def execStaZp (zp : Byte) (s : State) : Host.Outcome State Fault Refusal := storeRegister .a (.zp zp) s

/-- STA ZPX (R131, R104). -/
def execStaZpx (zp : Byte) (s : State) : Host.Outcome State Fault Refusal := storeRegister .a (.zpx zp) s

/-- STA ABS (R131, R106). -/
def execStaAbs (addr : Word) (s : State) : Host.Outcome State Fault Refusal := storeRegister .a (.abs addr) s

/-- STA ABX (R131, R107). -/
def execStaAbx (addr : Word) (s : State) : Host.Outcome State Fault Refusal := storeRegister .a (.abx addr) s

/-- STA ABY (R131, R108). -/
def execStaAby (addr : Word) (s : State) : Host.Outcome State Fault Refusal := storeRegister .a (.aby addr) s

/-- STA IZX (R131, R110). -/
def execStaIzx (zp : Byte) (s : State) : Host.Outcome State Fault Refusal := storeRegister .a (.izx zp) s

/-- STA IZY (R131, R111). -/
def execStaIzy (zp : Byte) (s : State) : Host.Outcome State Fault Refusal := storeRegister .a (.izy zp) s

/-- STX ZP (R132, R103). -/
def execStxZp (zp : Byte) (s : State) : Host.Outcome State Fault Refusal := storeRegister .x (.zp zp) s

/-- STX ZPY (R132, R105). -/
def execStxZpy (zp : Byte) (s : State) : Host.Outcome State Fault Refusal := storeRegister .x (.zpy zp) s

/-- STX ABS (R132, R106). -/
def execStxAbs (addr : Word) (s : State) : Host.Outcome State Fault Refusal := storeRegister .x (.abs addr) s

/-- STY ZP (R133, R103). -/
def execStyZp (zp : Byte) (s : State) : Host.Outcome State Fault Refusal := storeRegister .y (.zp zp) s

/-- STY ZPX (R133, R104). -/
def execStyZpx (zp : Byte) (s : State) : Host.Outcome State Fault Refusal := storeRegister .y (.zpx zp) s

/-- STY ABS (R133, R106). -/
def execStyAbs (addr : Word) (s : State) : Host.Outcome State Fault Refusal := storeRegister .y (.abs addr) s

end Sys2Proof.Machine
end

