-- ==== Sys2Proof/Machine/Subroutine.lean ====
section
/-! DEFINITION. Call and return, JSR and RTS (47_subroutine.md R180 to R188), and the break opcode (48_break.md R200). -/

namespace Sys2Proof.Machine

/-- The return address JSR pushes, from `PC` after both operand fetches (R186, decision D8). -/
def returnAddress (rule : JsrPush) (pc : Word) : Word :=
  match rule with
  | .nextInstruction => pc
  | .lastByte => pc - 1#16

/-- JSR ABS (R186): both operand fetches, then the pushes of the return address, then the `PC` write. -/
def execJsr (target : Word) (s : State) : Host.Outcome State Fault Refusal :=
  let t := s.fetchOperands 2
  .next (((t.pushWord (returnAddress t.config.jsrPush t.pc)).setPC target).consume 1)

/-- RTS (R187): `PC` is exactly the word popped; the `PC` write and two idle events consume three cycles (R271). -/
def execRts (s : State) : Host.Outcome State Fault Refusal :=
  let w := s.popWord
  .next ((w.2.setPC w.1).consume 3)

/-- BRK (R200): the run ends with the reason BREAK; nothing is pushed, reported or otherwise written. -/
def execBrk (s : State) : Host.Outcome State Fault Refusal := .next (s.halt .breakOpcode)

end Sys2Proof.Machine
end

