-- ==== Sys2Proof/Machine/Gate.lean ====
section
/-! DEFINITION. The debug gate (60_exceptions.md R235 to R241): what it presents at a pause, what each command does to
the latches, and what it answers. The text form of all of it is outside the spec (00_scope.md R5(b)). -/

namespace Sys2Proof.Machine

/-- The three bytes an instruction fetched just before `PC` can span (R22: they wrap past 0xFFFF), decoded by `OPTAB`. During a
pause the opcode byte is read again from `PC - 1`, as R32 says it can be (log entry 10). -/
def State.decodeFetched (s : State) : Decoded :=
  decodeBytesIn s.config.optab (s.readByte (s.pc - 1#16)) (s.readByte s.pc) (s.readByte (s.pc + 1#16))

/-- What the gate presents at a pause (R93, R236). -/
structure PauseView where
  op : Byte
  fetchAddr : Word
  decoded : Decoded
  a : Byte
  x : Byte
  y : Byte
  pc : Word
  sp : Byte
  flags : Flags
  deriving DecidableEq, Repr

/-- The view of the not-yet-executed instruction and the registers and flags (R236). -/
def pauseView (s : State) : PauseView where
  op := s.readByte (s.pc - 1#16)
  fetchAddr := s.pc - 1#16
  decoded := s.decodeFetched
  a := s.a
  x := s.x
  y := s.y
  pc := s.pc
  sp := s.sp
  flags := s.flags

/-- The bytes of memory from `first` to `last`, both included; none where `first` is above `last` (R238, decision D24). -/
def memoryRange (s : State) (first last : Nat) : List Byte :=
  (List.range (last + 1 - first)).map fun k => s.readByte (BitVec.ofNat 16 (first + k))

/-- What a command is answered with. -/
inductive DebugResponse where
  /-- The pause is released (R237, R239). -/
  | released
  /-- The command list (R238). -/
  | commandList
  /-- The bytes read (R238). -/
  | bytes (bs : List Byte)
  /-- MalformedDebugCommand (R240). -/
  | malformedDebugCommand
  deriving DecidableEq, Repr

/-- The port's answer to a command at a pause (R237 to R241). -/
def debugResponse (c : DebugCommand) (s : State) : DebugResponse :=
  if c.wellFormed then
    match c with
    | .step => .released
    | .exit => .released
    | .help => .commandList
    | .dumpStack => .bytes (memoryRange s 256 511)
    | .dumpMemory first last => .bytes (memoryRange s first last)
    | .malformed => .malformedDebugCommand
  else .malformedDebugCommand

/-- What a command does to the latches: step releases the pause (R237), exit also sets `exit_request` (R239), and every
other command, well formed or not, changes nothing and leaves the engine paused (R238, R240). -/
def State.obey (s : State) (c : DebugCommand) : State :=
  match c with
  | .step => s.setPaused false
  | .exit => (s.setExitRequest true).setPaused false
  | .help => s
  | .dumpStack => s
  | .dumpMemory _ _ => s
  | .malformed => s

/-- The operator types a line: it waits until the gate reads it (log entry 4). -/
def State.offer (s : State) (c : DebugCommand) : State := s.setDebugInput (s.debugInput ++ [c])

end Sys2Proof.Machine
end

