-- ==== Sys2Proof/Machine/Pass.lean ====
section
/-! DEFINITION. One pass of the Dispatcher loop, part by part (40_dispatcher.md R90 to R95), and placing an instruction
where the next pass fetches it. -/

namespace Sys2Proof.Machine

/-- The total cycle count `N` in the row of the fetched byte (R95); absent for BRK, which uses none (R94). -/
def State.fetchedCycles (s : State) : Option Nat :=
  (lookupOpcode s.config.optab (s.readByte (s.pc - 1#16))).bind OpRow.cyc

/-- The handler ends: `cycles_remaining` is 0 (R95). With the counts of R74 the events of R271 have brought it there
already; with a table of other counts this does (decision D5; log entry 15). -/
def endCountdown : Host.Outcome State Fault Refusal → Host.Outcome State Fault Refusal
  | .next t => .next (t.setCycles 0)
  | .fault f => .fault f
  | .refused r => .refused r

/-- The terminal check and decode and execute (R94, R95), from `PC` just past the opcode byte: `cycles_remaining` starts at
`N - 1`, the handler runs, and it ends at 0. BRK's arm of `exec` is the break halt; a byte with no row raises
UnrecognizedOpcode with its own address. -/
def completePass (s : State) : Host.Outcome State Fault Refusal :=
  match s.decodeFetched with
  | .instr i =>
    match s.fetchedCycles with
    | some n => endCountdown (exec i (s.setCycles ((n : Int) - 1)))
    | none => exec i s
  | .unrecognized byte => .next (raiseUnrecognizedOpcode byte (s.pc - 1#16) s)

/-- What follows the debug gate: with `EXIT_SAMPLE = after_gate` the exit check stands here (R239, decision D16; log entry
11). -/
def afterGate (s : State) : Host.Outcome State Fault Refusal :=
  if s.exitRequest && s.config.exitSample == .afterGate then .next (s.halt .debugExit)
  else completePass s

/-- A pass from the loop head (R90): the exit check (R91), the fetch (R92), and the gate, where the engine pauses when
`DEBUG_ENABLE` is true (R93). -/
def fromLoopHead (s : State) : Host.Outcome State Fault Refusal :=
  if s.exitRequest && s.config.exitSample == .loopHead then .next (s.halt .debugExit)
  else if s.debugEnable then .next (s.fetchOpcode.setPaused true)
  else afterGate s.fetchOpcode

/-- At a pause: with no command the engine holds (R235); a command is read and obeyed, and where it releases the pause
the pass goes on (R237 to R240). -/
def fromPause (s : State) : Host.Outcome State Fault Refusal :=
  match s.debugInput with
  | [] => .next s
  | c :: rest =>
    let t := (s.setDebugInput rest).obey c
    if t.paused then .next t else afterGate t

/-- Store bytes at rising addresses from `addr`, wrapping modulo 65536 (R51). -/
def Memory.writeBytes : Memory → Word → List Byte → Memory
  | m, _, [] => m
  | m, addr, b :: bs => Memory.writeBytes (m.write addr b) (addr + 1#16) bs

/-- The three bytes of a table word, lowest address first, every bit from `nbits` up being 0. -/
def tableBytes (nbits w : Nat) : List Byte :=
  let v := w % 2 ^ nbits
  [BitVec.ofNat 8 v, BitVec.ofNat 8 (v / 256), BitVec.ofNat 8 (v / 65536)]

end Sys2Proof.Machine
end

