-- ==== Sys2Proof/Machine/Boot.lean ====
section
/-! DEFINITION. What the host does before the run (70_reset_and_hazards.md R255 to R257): it fixes the parameters and
`DEBUG_ENABLE` and copies the program image into memory. Log entry 13. -/

namespace Sys2Proof.Machine

/-- The loader (R256): byte `i` of the image at `0x0200 + i`, nothing else; an image of more than 65024 bytes has no
meaning (decision D19). -/
def loadImage (image : List Byte) (s : State) : Host.Outcome State Fault Refusal :=
  if imageWellFormed image then .next (s.setMem (s.mem.writeBytes base image))
  else .refused .imageTooLong

/-- The state a run starts from (R257): the engine just created, with the host's parameters, `DEBUG_ENABLE`, and what the
operator types, and the image loaded. An ill-formed opcode table has no meaning (log entry 1). -/
def launch (cfg : Config) (debugEnable : Bool) (input : List DebugCommand) (image : List Byte) :
    Host.Outcome State Fault Refusal :=
  if cfg.wellFormed then
    loadImage image { State.reset with config := cfg, debugEnable := debugEnable, debugInput := input }
  else .refused .opcodeTableIllFormed

end Sys2Proof.Machine
end

