-- ==== Sys2Proof/Machine/Step.lean ====
section
/-! DEFINITION. One step of the engine. With `DEBUG_ENABLE` false a step is one pass of the Dispatcher loop (00_scope.md
R12, 40_dispatcher.md R90); with it true the pause parts a pass in two or more steps (log entry 9). -/

namespace Sys2Proof.Machine

/-- One step: a halted engine stays as it is (R214; log entry 5), a paused one waits for the debug port, any other runs a
pass from the loop head. -/
def step (s : State) : Host.Outcome State Fault Refusal :=
  if s.halted then .next s
  else if s.paused then fromPause s
  else fromLoopHead s

/-- `s` with a table word's bytes stored where the next pass fetches its opcode and operands: at `PC`. -/
def State.withFetchWord (s : State) (nbits w : Nat) : State :=
  s.setMem (s.mem.writeBytes s.pc (tableBytes nbits w))

end Sys2Proof.Machine
end

