-- ==== Sys2Proof/Safety.lean ====
section
/-! DEFINITION. The terms claims about runs use: where the engine stands between steps, how a run has ended, and the
invariant of every reachable state (10_state.md R34, 60_exceptions.md R210, R230, R235). -/

namespace Sys2Proof.Machine

/-- The engine is about to start a pass (R90): not halted, not held at a pause. -/
def State.atLoopHead (s : State) : Prop := s.halted = false ∧ s.paused = false

/-- The run has ended at the break opcode, the normal end (R200, R210). -/
def State.endedNormally (s : State) : Prop := s.halted = true ∧ s.haltReason = .breakOpcode

/-- A run is safe in a state when the engine has not failed there: UnrecognizedOpcode is the sole failure (R97). -/
def State.safe (s : State) : Prop := s.haltReason ≠ .unrecognizedOpcode

/-- What holds of every state a run reaches. -/
structure State.Inv (s : State) : Prop where
  /-- Memory is in its canonical form, inside the 65536-byte space (R34, R50). -/
  memoryCanonical : s.mem.wf = true
  /-- `I = D = B = 0` (R34). -/
  unusedFlagsZero : s.flags.i = false ∧ s.flags.d = false ∧ s.flags.b = false
  /-- `cycles_remaining = 0` wherever the engine can be observed (R34, R230). -/
  countdownZero : s.cyclesRemaining = 0
  /-- `halted` and a reason other than RUNNING go together (R210). -/
  haltedIffReason : s.halted = true ↔ s.haltReason ≠ .running
  /-- The report latches hold a value exactly after an UnrecognizedOpcode halt (R28, R33). -/
  reportIffUnrecognized : (s.faultByte.isSome = true ↔ s.haltReason = .unrecognizedOpcode) ∧
    (s.faultAddr.isSome = true ↔ s.haltReason = .unrecognizedOpcode)
  /-- The reported byte has no row (R212). -/
  reportedByteHasNoRow : ∀ b, s.faultByte = some b → (lookupOpcode s.config.optab b).isNone = true
  /-- Only the debug port asks for an exit or holds the engine (R91, R235). -/
  debugLatchesNeedEnable : (s.exitRequest = true → s.debugEnable = true) ∧ (s.paused = true → s.debugEnable = true)
  /-- A halted engine is not paused (R224: two different states). -/
  haltedNotPaused : s.halted = true → s.paused = false

/-- The states `k` steps on from a state, where every step answers a next state. -/
def reaches : Nat → State → State → Prop
  | 0, s, t => s = t
  | k + 1, s, t => ∃ u, step s = .next u ∧ reaches k u t

end Sys2Proof.Machine
end

