-- ==== Sys2Proof/Certificates/Slice0/Obligations.lean ====
section
/-! DEFINITION. The statements for the provers. `Claims` holds the spec's formulas the statements are written with. -/

namespace Sys2Proof.Claims

open Sys2Proof.Machine

/-- The instruction completes: its own effect is `t`, but for the countdown, whose schedule is the spec's own (D5) and
which has a statement of its own. -/
def completes (i : Instr) (s t : State) : Prop := ∃ c : Int, exec i s = .next { t with cyclesRemaining := c }

/-- The byte at a mode's effective address. -/
def dataAt (m : MemOperand) (s : State) : Byte := s.mem.read (m.ea s)

/-- `SetZN(v)`: `Z <- (v == 0)`, `N <- v[7]`, under both values of `LOAD_INC_FLAGS` (R120). -/
def zn (v : Byte) (s : State) : Flags :=
  match s.config.loadIncFlags with
  | .zn => { s.flags with z := decide (v = 0#8), n := v.getLsbD 7 }
  | .none => s.flags

/-- `PC` past `k` operand bytes. -/
def past (k : Nat) (s : State) : Word := s.pc + BitVec.ofNat 16 k

def loadedA (v : Byte) (k : Nat) (s : State) : State := { s with a := v, flags := zn v s, pc := past k s }

def loadedX (v : Byte) (k : Nat) (s : State) : State := { s with x := v, flags := zn v s, pc := past k s }

def loadedY (v : Byte) (k : Nat) (s : State) : State := { s with y := v, flags := zn v s, pc := past k s }

/-- One byte written at a mode's effective address, and `PC` moved on. -/
def stored (m : MemOperand) (v : Byte) (k : Nat) (s : State) : State :=
  { s with mem := s.mem.write (m.ea s) v, pc := past k s }

/-- `Cin` as a number. -/
def cin (s : State) : Nat := if s.flags.c then 1 else 0

/-- `(!(A[7] ^ M[7])) & (A[7] ^ R[7])` (R143). -/
def overflow (a m r : Byte) : Bool := !(a.getLsbD 7 ^^ m.getLsbD 7) && (a.getLsbD 7 ^^ r.getLsbD 7)

/-- `R <- (A + M + Cin) mod 256` (R141). -/
def sum (m : Byte) (s : State) : Byte := BitVec.ofNat 8 (s.a.toNat + m.toNat + cin s)

/-- `C` after ADC, under both values of `CARRY_RULE` (R142). -/
def sumCarry (m : Byte) (s : State) : Bool :=
  match s.config.carryRule with
  | .msbXor => s.a.getLsbD 7 ^^ (sum m s).getLsbD 7
  | .bit8 => decide (256 ≤ s.a.toNat + m.toNat + cin s)

/-- ADC's whole effect (R141 to R144). -/
def added (m : Byte) (k : Nat) (s : State) : State :=
  { s with
    a := sum m s
    flags := { s.flags with
      c := sumCarry m s
      v := overflow s.a m (sum m s)
      z := decide (sum m s = 0#8)
      n := (sum m s).getLsbD 7 }
    pc := past k s }

/-- `R <- (A - M - (1 - Cin)) mod 256` (R146). -/
def difference (m : Byte) (s : State) : Byte :=
  BitVec.ofInt 8 ((s.a.toNat : Int) - (m.toNat : Int) - (1 - (cin s : Int)))

/-- `C` after SBC, under the three values of `SBC_FLAGS` (R146, D11). -/
def differenceCarry (m : Byte) (s : State) : Bool :=
  match s.config.sbcFlags with
  | .uniformRawOperand => s.a.getLsbD 7 ^^ (difference m s).getLsbD 7
  | .uniformComplementedOperand => s.a.getLsbD 7 ^^ (difference m s).getLsbD 7
  | .mos => decide (0 ≤ (s.a.toNat : Int) - (m.toNat : Int) - (1 - (cin s : Int)))

/-- `V` after SBC, under the three values of `SBC_FLAGS` (R146, D11). -/
def differenceOverflow (m : Byte) (s : State) : Bool :=
  match s.config.sbcFlags with
  | .uniformRawOperand => overflow s.a m (difference m s)
  | .uniformComplementedOperand => overflow s.a (~~~m) (difference m s)
  | .mos => (s.a.getLsbD 7 ^^ m.getLsbD 7) && (s.a.getLsbD 7 ^^ (difference m s).getLsbD 7)

/-- SBC's whole effect (R146). -/
def subtracted (m : Byte) (k : Nat) (s : State) : State :=
  { s with
    a := difference m s
    flags := { s.flags with
      c := differenceCarry m s
      v := differenceOverflow m s
      z := decide (difference m s = 0#8)
      n := (difference m s).getLsbD 7 }
    pc := past k s }

/-- `v + 1` modulo 256 (R160). -/
def plusOne (v : Byte) : Byte := BitVec.ofNat 8 (v.toNat + 1)

/-- INC's whole effect (R161). -/
def incremented (m : MemOperand) (k : Nat) (s : State) : State :=
  { s with
    mem := s.mem.write (m.ea s) (plusOne (dataAt m s))
    flags := zn (plusOne (dataAt m s)) s
    pc := past k s }

/-- The stack cell a pointer names: `0x0100 + SP` (R24, R181). -/
def cell (p : Byte) : Word := BitVec.ofNat 16 (256 + p.toNat)

/-- The return address JSR pushes, under both values of `JSR_PUSH`; `PC` stands at the first operand byte (R186, D8). -/
def pushed (s : State) : Word :=
  match s.config.jsrPush with
  | .nextInstruction => s.pc + 2#16
  | .lastByte => s.pc + 1#16

/-- A resolved mode: the address, `PC` past `k` operand bytes, and nothing else changed but the countdown (R100). -/
def resolves (m : MemOperand) (k addr : Nat) (s : State) : Prop :=
  ∀ acc, ((resolve m acc s).1.toNat = addr) ∧
    ∃ c : Int, (resolve m acc s).2 = { s with pc := past k s, cyclesRemaining := c }

/-- The byte at a numeric address. -/
def byteAt (s : State) (n : Nat) : Nat := (s.mem.read (BitVec.ofNat 16 n)).toNat

/-- The mode and operand of each instruction that resolves an effective address. -/
def memOperand : Instr → Option MemOperand
  | .ldaZp z => some (.zp z)
  | .ldaZpx z => some (.zpx z)
  | .ldaAbs w => some (.abs w)
  | .ldaAbx w => some (.abx w)
  | .ldaAby w => some (.aby w)
  | .ldaIzx z => some (.izx z)
  | .ldaIzy z => some (.izy z)
  | .ldxZp z => some (.zp z)
  | .ldxZpy z => some (.zpy z)
  | .ldxAbs w => some (.abs w)
  | .ldxAby w => some (.aby w)
  | .ldyZp z => some (.zp z)
  | .ldyZpx z => some (.zpx z)
  | .ldyAbs w => some (.abs w)
  | .ldyAbx w => some (.abx w)
  | .staZp z => some (.zp z)
  | .staZpx z => some (.zpx z)
  | .staAbs w => some (.abs w)
  | .staAbx w => some (.abx w)
  | .staAby w => some (.aby w)
  | .staIzx z => some (.izx z)
  | .staIzy z => some (.izy z)
  | .stxZp z => some (.zp z)
  | .stxZpy z => some (.zpy z)
  | .stxAbs w => some (.abs w)
  | .styZp z => some (.zp z)
  | .styZpx z => some (.zpx z)
  | .styAbs w => some (.abs w)
  | .adcZp z => some (.zp z)
  | .adcZpx z => some (.zpx z)
  | .adcAbs w => some (.abs w)
  | .adcAbx w => some (.abx w)
  | .adcAby w => some (.aby w)
  | .adcIzx z => some (.izx z)
  | .adcIzy z => some (.izy z)
  | .sbcZp z => some (.zp z)
  | .sbcZpx z => some (.zpx z)
  | .sbcAbs w => some (.abs w)
  | .sbcAbx w => some (.abx w)
  | .sbcAby w => some (.aby w)
  | .sbcIzx z => some (.izx z)
  | .sbcIzy z => some (.izy z)
  | .incZp z => some (.zp z)
  | .incZpx z => some (.zpx z)
  | .incAbs w => some (.abs w)
  | .incAbx w => some (.abx w)
  | _ => none

/-- The address an instruction that stores one byte stores to: its mode's effective address. -/
def storeOperand : Instr → Option MemOperand
  | .staZp z => some (.zp z)
  | .staZpx z => some (.zpx z)
  | .staAbs w => some (.abs w)
  | .staAbx w => some (.abx w)
  | .staAby w => some (.aby w)
  | .staIzx z => some (.izx z)
  | .staIzy z => some (.izy z)
  | .stxZp z => some (.zp z)
  | .stxZpy z => some (.zpy z)
  | .stxAbs w => some (.abs w)
  | .styZp z => some (.zp z)
  | .styZpx z => some (.zpx z)
  | .styAbs w => some (.abs w)
  | .incZp z => some (.zp z)
  | .incZpx z => some (.zpx z)
  | .incAbs w => some (.abs w)
  | .incAbx w => some (.abx w)
  | _ => none

/-- The address stored to, computed as the meaning computes it. -/
def storeTarget (i : Instr) (s : State) : Option Word := (storeOperand i).map fun m => m.ea s

/-- The latches, the host's inputs and the parameters are as before. -/
def controlUnchanged (s t : State) : Prop :=
  t.halted = s.halted ∧ t.haltReason = s.haltReason ∧ t.faultByte = s.faultByte ∧ t.faultAddr = s.faultAddr ∧
  t.exitRequest = s.exitRequest ∧ t.paused = s.paused ∧ t.debugEnable = s.debugEnable ∧
  t.debugInput = s.debugInput ∧ t.config = s.config

/-- The engine is about to fetch and run an instruction with the gate off. -/
def ready (s : State) : Prop :=
  s.halted = false ∧ s.paused = false ∧ s.exitRequest = false ∧ s.debugEnable = false

/-- What the bytes at an address, and the two after it, decode to by the run's `OPTAB`. -/
def decodedAt (addr : Word) (s : State) : Decoded :=
  decodeBytesIn s.config.optab (s.mem.read addr) (s.mem.read (addr + 1#16)) (s.mem.read (addr + 2#16))

/-- The instruction a step works on: the one held at a pause, else the one at `PC`. -/
def current (s : State) : Decoded := if s.paused then decodedAt (s.pc - 1#16) s else decodedAt s.pc s

/-- The count `N` in the `OPTAB` row of the byte at an address, where its row has one. -/
def countAt (addr : Word) (s : State) : Option Nat := (lookupOpcode s.config.optab (s.mem.read addr)).bind OpRow.cyc

/-- Step 3 of the Dispatcher for the instruction whose opcode byte is at `addr`, from `s` with `PC` past that byte (R95):
`exec` with the countdown at `N - 1`, and the countdown at 0 afterwards; for a row without a count (BRK's), `exec` alone. -/
def handled (i : Instr) (addr : Word) (s t : State) : Prop :=
  match countAt addr s with
  | some n => ∃ u, exec i { s with cyclesRemaining := (n : Int) - 1 } = .next u ∧ t = { u with cyclesRemaining := 0 }
  | none => exec i s = .next t

/-- The countdown's start by the counts of R270: `N - 1`, or as it was where there is no `N`. -/
def started (i : Instr) (s : State) (count : Op → Mode → Option Nat) : Int :=
  match count i.op i.mode with
  | some n => (n : Int) - 1
  | none => s.cyclesRemaining

/-- The total cycle counts by operation and mode, as R270 lists them. -/
def cyclesByMode (op : Op) (mode : Mode) : Option Nat :=
  match op, mode with
  | .brk, _ => none
  | .jsr, _ => some 6
  | .rts, _ => some 6
  | .inx, _ => some 2
  | .iny, _ => some 2
  | .sec, _ => some 2
  | .clc, _ => some 2
  | .inc, .zp => some 5
  | .inc, .zpx => some 6
  | .inc, .abs => some 6
  | .inc, _ => some 7
  | .sta, m => some (storeCycles m)
  | .stx, m => some (storeCycles m)
  | .sty, m => some (storeCycles m)
  | _, .imm => some 2
  | _, .zp => some 3
  | _, .izx => some 6
  | _, .izy => some 5
  | _, _ => some 4
where
  storeCycles : Mode → Nat
    | .zp => 3
    | .zpx => 4
    | .zpy => 4
    | .abs => 4
    | .izx => 6
    | .izy => 6
    | _ => 5

/-- The 58 opcode bytes of the table (R74). -/
def tableBytes : List Byte :=
  [0xA9#8, 0xA5#8, 0xB5#8, 0xAD#8, 0xBD#8, 0xB9#8, 0xA1#8, 0xB1#8, 0xA2#8, 0xA6#8, 0xB6#8, 0xAE#8, 0xBE#8, 0xA0#8, 0xA4#8, 0xB4#8, 0xAC#8, 0xBC#8] ++
  [0x85#8, 0x95#8, 0x8D#8, 0x9D#8, 0x99#8, 0x81#8, 0x91#8, 0x86#8, 0x96#8, 0x8E#8, 0x84#8, 0x94#8, 0x8C#8] ++
  [0x69#8, 0x65#8, 0x75#8, 0x6D#8, 0x7D#8, 0x79#8, 0x61#8, 0x71#8, 0xE9#8, 0xE5#8, 0xF5#8, 0xED#8, 0xFD#8, 0xF9#8, 0xE1#8, 0xF1#8] ++
  [0xE6#8, 0xF6#8, 0xEE#8, 0xFE#8, 0xE8#8, 0xC8#8, 0x38#8, 0x18#8, 0x20#8, 0x60#8, 0x00#8]

end Sys2Proof.Claims

open Sys2Proof Sys2Proof.Machine

/-- Decoding an encoded instruction gives it back, with every operand and the rest of the stream, by every table. Rests
on 30_encoding.md section 1, 30_encoding.md section 3. For every well-formed OPTAB, and for the default one, which has
bytes for all 58 constructors (their values are decision D2; log entry 1). -/
def Obligations.DecodeOfEncodeIsTheInstruction : Prop :=
  (∀ (t : OpTable) (i : Instr) (bs rest : List Byte), t.wellFormed = true → encodeIn t i = some bs →
    decodeIn t (bs ++ rest) = .instr i rest) ∧
  (∀ i : Instr, encodeIn defaultOptab i = some (encode i)) ∧
  ∀ (i : Instr) (rest : List Byte), decode (encode i ++ rest) = .instr i rest

/-- Each instruction word has one meaning: encoding a decoded instruction gives its bytes back. Rests on 30_encoding.md
section 1, 30_encoding.md section 3. For every OPTAB in which no operation and mode have two rows, and for the default
one (its byte values are decision D2; log entry 1). -/
def Obligations.EncodeOfDecodeIsTheStream : Prop :=
  (∀ (t : OpTable) (stream : List Byte) (i : Instr) (rest : List Byte), (t.map fun r => (r.op, r.mode)).Nodup →
    decodeIn t stream = .instr i rest → ∃ bs, encodeIn t i = some bs ∧ bs ++ rest = stream) ∧
  ∀ (stream : List Byte) (i : Instr) (rest : List Byte), decode stream = .instr i rest → encode i ++ rest = stream

/-- Decoding the three bytes at PC and decoding a byte stream read the same instruction, by every table. Rests on
30_encoding.md section 1, 30_encoding.md section 5. -/
def Obligations.FetchedBytesDecodeAsTheStreamDoes : Prop :=
  ∀ (t : OpTable) (b0 b1 b2 : Byte),
  (∀ i, decodeBytesIn t b0 b1 b2 = .instr i ↔ decodeIn t [b0, b1, b2] = .instr i ([b0, b1, b2].drop i.length)) ∧
  (∀ b, decodeBytesIn t b0 b1 b2 = .unrecognized b ↔ decodeIn t [b0, b1, b2] = .unrecognized b)

/-- An opcode byte is rejected, by its own value, exactly when the table has no row for it; by the default table, exactly
when it is not one of the 58. Rests on 30_encoding.md section 3, 30_encoding.md section 4. For every well-formed OPTAB; the
58 bytes and the 198 others are the default's (D2, log entry 1). -/
def Obligations.UnlistedOpcodeBytesAreRejected : Prop :=
  (∀ (t : OpTable) (b b1 b2 : Byte), t.wellFormed = true →
    (decodeBytesIn t b b1 b2 = .unrecognized b ↔ b ∉ t.map OpRow.byte)) ∧
  (∀ b b1 b2 : Byte, decodeBytes b b1 b2 = .unrecognized b ↔ b ∉ Claims.tableBytes) ∧
  ((List.range 256).filter fun n => (lookupOpcode defaultOptab (BitVec.ofNat 8 n)).isNone).length = 198

/-- One word of each mnemonic, written out from the table, decodes to the instruction it stands for. Rests on
30_encoding.md section 1, 30_encoding.md section 3. A sanity statement; the byte values are OPTAB at its default (D2,
log entry 1). -/
def Obligations.WrittenOutWordsDecode : Prop :=
  decodeBytes 0xA9#8 0x42#8 0x00#8 = .instr (.ldaImm 0x42#8) ∧
  decodeBytes 0xB6#8 0xF0#8 0x00#8 = .instr (.ldxZpy 0xF0#8) ∧
  decodeBytes 0xBC#8 0x00#8 0x03#8 = .instr (.ldyAbx 0x0300#16) ∧
  decodeBytes 0x91#8 0x40#8 0x00#8 = .instr (.staIzy 0x40#8) ∧
  decodeBytes 0x8E#8 0x34#8 0x12#8 = .instr (.stxAbs 0x1234#16) ∧
  decodeBytes 0x94#8 0x10#8 0x00#8 = .instr (.styZpx 0x10#8) ∧
  decodeBytes 0x79#8 0xFF#8 0xFF#8 = .instr (.adcAby 0xFFFF#16) ∧
  decodeBytes 0xE1#8 0x20#8 0x00#8 = .instr (.sbcIzx 0x20#8) ∧
  decodeBytes 0xFE#8 0x00#8 0x03#8 = .instr (.incAbx 0x0300#16) ∧
  decodeBytes 0xE8#8 0x00#8 0x00#8 = .instr .inx ∧
  decodeBytes 0xC8#8 0x00#8 0x00#8 = .instr .iny ∧
  decodeBytes 0x38#8 0x00#8 0x00#8 = .instr .sec ∧
  decodeBytes 0x18#8 0x00#8 0x00#8 = .instr .clc ∧
  decodeBytes 0x20#8 0x21#8 0x02#8 = .instr (.jsr 0x0221#16) ∧
  decodeBytes 0x60#8 0x00#8 0x00#8 = .instr .rts ∧
  decodeBytes 0x00#8 0x00#8 0x00#8 = .instr .brk

/-- Every instruction has the total cycle count listed for its operation and mode. Rests on 70_reset_and_hazards.md
section 4, 30_encoding.md section 3. The numbers are OPTAB at its default (D4, log entry 1). -/
def Obligations.CycleCountsAreTheListedOnes : Prop :=
  ∀ i : Instr, (rowOf defaultOptab i).map OpRow.cyc = some (Claims.cyclesByMode i.op i.mode)

/-- The state after creation, field by field. Rests on 10_state.md section 7, 70_reset_and_hazards.md section 1. PC
0x0200, SP 0xFF, A, X, Y and the flags 0, every memory byte 0x00 (R33); the latches as decision D18 sets them (log
entry 12); DEBUG_ENABLE off, no operator input and default parameters are the model's choice (log entries 2, 3, 4). -/
def Obligations.ResetState : Prop :=
  (State.reset.pc = 0x0200#16 ∧ State.reset.sp = 0xFF#8 ∧
    State.reset.a = 0x00#8 ∧ State.reset.x = 0x00#8 ∧ State.reset.y = 0x00#8) ∧
  State.reset.flags = ⟨false, false, false, false, false, false, false⟩ ∧
  (∀ addr : Word, State.reset.mem.read addr = 0x00#8) ∧
  (State.reset.cyclesRemaining = 0 ∧ State.reset.halted = false ∧ State.reset.haltReason = .running ∧
    State.reset.faultByte = none ∧ State.reset.faultAddr = none ∧
    State.reset.exitRequest = false ∧ State.reset.paused = false) ∧
  (State.reset.debugEnable = false ∧ State.reset.debugInput = [] ∧
    State.reset.config =
      ⟨defaultOptab, .msbXor, .uniformRawOperand, .zn, .wrap8, .nextInstruction, .loopHead⟩)

/-- A run starts from the reset state with the image at 0x0200 onward and 0x00 everywhere else. Rests on
70_reset_and_hazards.md section 2. The length bound is decision D19; that the table must be well formed is log entry 1. -/
def Obligations.LaunchLoadsTheImage : Prop :=
  ∀ (cfg : Config) (dbg : Bool) (input : List DebugCommand) (image : List Byte), cfg.wellFormed = true →
  image.length ≤ 65024 →
  ∃ t, launch cfg dbg input image = .next t ∧
    (∀ (k : Nat) (h : k < image.length), t.mem.read (BitVec.ofNat 16 (0x0200 + k)) = image[k]) ∧
    (∀ addr : Word, addr.toNat < 0x0200 ∨ 0x0200 + image.length ≤ addr.toNat → t.mem.read addr = 0x00#8) ∧
    t.mem.wf = true ∧
    t = { State.reset with mem := t.mem, config := cfg, debugEnable := dbg, debugInput := input }

/-- An image of more than 65024 bytes is refused by name. Rests on 70_reset_and_hazards.md section 2,
92_eei_decisions.md D19. The loader gives an image longer than 65024 bytes no meaning and no run starts (decision D19,
log entry 14); the parameters are otherwise well formed (log entry 1). -/
def Obligations.OverlongImageIsRefused : Prop :=
  ∀ (cfg : Config) (dbg : Bool) (input : List DebugCommand) (image : List Byte), cfg.wellFormed = true →
  65024 < image.length →
  launch cfg dbg input image = .refused .imageTooLong

/-- The effective address of the zero-page and absolute modes, plain and indexed, from the operand bytes at PC. Rules
R103, R104, R105, R106, R107, R108. The operand is the byte at PC, or the two from PC on, low byte first. -/
def Obligations.DirectModesResolve : Prop :=
  ∀ (s : State) (z lo hi : Byte),
  Claims.resolves (.zp z) 1 z.toNat s ∧
  (Claims.resolves (.zpx z) 1 (z.toNat + s.x.toNat) s ∧ z.toNat + s.x.toNat ≤ 0x01FE) ∧
  (Claims.resolves (.zpy z) 1 (z.toNat + s.y.toNat) s ∧ z.toNat + s.y.toNat ≤ 0x01FE) ∧
  Claims.resolves (.abs (joinBytes hi lo)) 2 (256 * hi.toNat + lo.toNat) s ∧
  Claims.resolves (.abx (joinBytes hi lo)) 2 ((256 * hi.toNat + lo.toNat + s.x.toNat) % 65536) s ∧
  Claims.resolves (.aby (joinBytes hi lo)) 2 ((256 * hi.toNat + lo.toNat + s.y.toNat) % 65536) s ∧
  ∀ (i : Instr) (m : MemOperand), Claims.decodedAt (s.pc - 1#16) s = .instr i → Claims.memOperand i = some m →
    (i.mode = .zp → m = .zp (s.mem.read s.pc)) ∧
    (i.mode = .zpx → m = .zpx (s.mem.read s.pc)) ∧
    (i.mode = .zpy → m = .zpy (s.mem.read s.pc)) ∧
    (i.mode = .abs → m = .abs (joinBytes (s.mem.read (s.pc + 1#16)) (s.mem.read s.pc))) ∧
    (i.mode = .abx → m = .abx (joinBytes (s.mem.read (s.pc + 1#16)) (s.mem.read s.pc))) ∧
    (i.mode = .aby → m = .aby (joinBytes (s.mem.read (s.pc + 1#16)) (s.mem.read s.pc)))

/-- The effective address of the two indirect modes, from the operand byte at PC, under both values of ZP_PTR_WRAP.
Rules R109, R110, R111. -/
def Obligations.IndirectModesResolve : Prop :=
  ∀ (s : State) (z : Byte),
  (s.config.zpPtrWrap = .wrap8 →
    Claims.resolves (.izx z) 1 (256 * Claims.byteAt s ((z.toNat + s.x.toNat + 1) % 256) +
      Claims.byteAt s ((z.toNat + s.x.toNat) % 256)) s ∧
    Claims.resolves (.izy z) 1 ((256 * Claims.byteAt s ((z.toNat + 1) % 256) +
      Claims.byteAt s z.toNat + s.y.toNat) % 65536) s) ∧
  (s.config.zpPtrWrap = .plain16 →
    Claims.resolves (.izx z) 1 (256 * Claims.byteAt s (z.toNat + s.x.toNat + 1) +
      Claims.byteAt s (z.toNat + s.x.toNat)) s ∧
    Claims.resolves (.izy z) 1 ((256 * Claims.byteAt s (z.toNat + 1) +
      Claims.byteAt s z.toNat + s.y.toNat) % 65536) s) ∧
  ∀ (i : Instr) (m : MemOperand), Claims.decodedAt (s.pc - 1#16) s = .instr i → Claims.memOperand i = some m →
    (i.mode = .izx → m = .izx (s.mem.read s.pc)) ∧ (i.mode = .izy → m = .izy (s.mem.read s.pc))

/-- LDA, LDX and LDY complete in every mode and copy the operand into their register. Rules R120. -/
def Obligations.LoadsCopyTheOperand : Prop :=
  ∀ s : State,
  (∀ v : Byte, Claims.completes (.ldaImm v) s (Claims.loadedA v 1 s)) ∧
  (∀ z : Byte, Claims.completes (.ldaZp z) s (Claims.loadedA (Claims.dataAt (.zp z) s) 1 s)) ∧
  (∀ z : Byte, Claims.completes (.ldaZpx z) s (Claims.loadedA (Claims.dataAt (.zpx z) s) 1 s)) ∧
  (∀ w : Word, Claims.completes (.ldaAbs w) s (Claims.loadedA (Claims.dataAt (.abs w) s) 2 s)) ∧
  (∀ w : Word, Claims.completes (.ldaAbx w) s (Claims.loadedA (Claims.dataAt (.abx w) s) 2 s)) ∧
  (∀ w : Word, Claims.completes (.ldaAby w) s (Claims.loadedA (Claims.dataAt (.aby w) s) 2 s)) ∧
  (∀ z : Byte, Claims.completes (.ldaIzx z) s (Claims.loadedA (Claims.dataAt (.izx z) s) 1 s)) ∧
  (∀ z : Byte, Claims.completes (.ldaIzy z) s (Claims.loadedA (Claims.dataAt (.izy z) s) 1 s)) ∧
  (∀ v : Byte, Claims.completes (.ldxImm v) s (Claims.loadedX v 1 s)) ∧
  (∀ z : Byte, Claims.completes (.ldxZp z) s (Claims.loadedX (Claims.dataAt (.zp z) s) 1 s)) ∧
  (∀ z : Byte, Claims.completes (.ldxZpy z) s (Claims.loadedX (Claims.dataAt (.zpy z) s) 1 s)) ∧
  (∀ w : Word, Claims.completes (.ldxAbs w) s (Claims.loadedX (Claims.dataAt (.abs w) s) 2 s)) ∧
  (∀ w : Word, Claims.completes (.ldxAby w) s (Claims.loadedX (Claims.dataAt (.aby w) s) 2 s)) ∧
  (∀ v : Byte, Claims.completes (.ldyImm v) s (Claims.loadedY v 1 s)) ∧
  (∀ z : Byte, Claims.completes (.ldyZp z) s (Claims.loadedY (Claims.dataAt (.zp z) s) 1 s)) ∧
  (∀ z : Byte, Claims.completes (.ldyZpx z) s (Claims.loadedY (Claims.dataAt (.zpx z) s) 1 s)) ∧
  (∀ w : Word, Claims.completes (.ldyAbs w) s (Claims.loadedY (Claims.dataAt (.abs w) s) 2 s)) ∧
  (∀ w : Word, Claims.completes (.ldyAbx w) s (Claims.loadedY (Claims.dataAt (.abx w) s) 2 s))

/-- STA, STX and STY complete in every mode and write their register at the effective address. Rules R130. -/
def Obligations.StoresWriteOneByte : Prop :=
  (∀ i : Instr, i.op = .sta ∨ i.op = .stx ∨ i.op = .sty → i.mode ≠ .imm) ∧ ∀ s : State,
  (∀ z : Byte, Claims.completes (.staZp z) s (Claims.stored (.zp z) s.a 1 s)) ∧
  (∀ z : Byte, Claims.completes (.staZpx z) s (Claims.stored (.zpx z) s.a 1 s)) ∧
  (∀ w : Word, Claims.completes (.staAbs w) s (Claims.stored (.abs w) s.a 2 s)) ∧
  (∀ w : Word, Claims.completes (.staAbx w) s (Claims.stored (.abx w) s.a 2 s)) ∧
  (∀ w : Word, Claims.completes (.staAby w) s (Claims.stored (.aby w) s.a 2 s)) ∧
  (∀ z : Byte, Claims.completes (.staIzx z) s (Claims.stored (.izx z) s.a 1 s)) ∧
  (∀ z : Byte, Claims.completes (.staIzy z) s (Claims.stored (.izy z) s.a 1 s)) ∧
  (∀ z : Byte, Claims.completes (.stxZp z) s (Claims.stored (.zp z) s.x 1 s)) ∧
  (∀ z : Byte, Claims.completes (.stxZpy z) s (Claims.stored (.zpy z) s.x 1 s)) ∧
  (∀ w : Word, Claims.completes (.stxAbs w) s (Claims.stored (.abs w) s.x 2 s)) ∧
  (∀ z : Byte, Claims.completes (.styZp z) s (Claims.stored (.zp z) s.y 1 s)) ∧
  (∀ z : Byte, Claims.completes (.styZpx z) s (Claims.stored (.zpx z) s.y 1 s)) ∧
  (∀ w : Word, Claims.completes (.styAbs w) s (Claims.stored (.abs w) s.y 2 s))

/-- ADC completes in every mode: the truncated sum, C, V, Z and N from the old A. Rules R140, R141, R143, R144. -/
def Obligations.AdcAddsWithCarry : Prop :=
  ∀ s : State,
  (∀ v : Byte, Claims.completes (.adcImm v) s (Claims.added v 1 s)) ∧
  (∀ z : Byte, Claims.completes (.adcZp z) s (Claims.added (Claims.dataAt (.zp z) s) 1 s)) ∧
  (∀ z : Byte, Claims.completes (.adcZpx z) s (Claims.added (Claims.dataAt (.zpx z) s) 1 s)) ∧
  (∀ w : Word, Claims.completes (.adcAbs w) s (Claims.added (Claims.dataAt (.abs w) s) 2 s)) ∧
  (∀ w : Word, Claims.completes (.adcAbx w) s (Claims.added (Claims.dataAt (.abx w) s) 2 s)) ∧
  (∀ w : Word, Claims.completes (.adcAby w) s (Claims.added (Claims.dataAt (.aby w) s) 2 s)) ∧
  (∀ z : Byte, Claims.completes (.adcIzx z) s (Claims.added (Claims.dataAt (.izx z) s) 1 s)) ∧
  (∀ z : Byte, Claims.completes (.adcIzy z) s (Claims.added (Claims.dataAt (.izy z) s) 1 s))

/-- Under CARRY_RULE = msb_xor the carry is M[7] ^ c7, and it agrees with bit 8 of the sum in exactly four sign cases.
Rests on 44_add_subtract.md section 1, 92_eei_decisions.md D10. -/
def Obligations.AdcCarryIsNotBitEight : Prop :=
  ∀ (a m : Byte) (c : Bool),
  let n : Nat := if c then 1 else 0
  let c7 : Bool := decide (128 ≤ a.toNat % 128 + m.toNat % 128 + n)
  let bit8 : Bool := decide (256 ≤ a.toNat + m.toNat + n)
  addCarry .bit8 a m c = bit8 ∧
  addCarry .msbXor a m c = (m.getLsbD 7 ^^ c7) ∧
  (addCarry .msbXor a m c = bit8 ↔ (a.getLsbD 7, m.getLsbD 7, c7) ∈
    [(false, false, false), (true, false, false), (true, false, true), (true, true, false)])

/-- Under CARRY_RULE = msb_xor an ADC that sets V also sets C. Rests on 44_add_subtract.md section 2. -/
def Obligations.AdcOverflowImpliesCarry : Prop :=
  ∀ (i : Instr) (s t : State), i.op = .adc → s.config.carryRule = .msbXor → exec i s = .next t →
  t.flags.v = true → t.flags.c = true

/-- SBC completes in every mode: the truncated difference, and C, V, Z, N under each value of SBC_FLAGS. Rules R146.
-/
def Obligations.SbcSubtractsWithBorrow : Prop :=
  ∀ s : State,
  (∀ m : Byte, Claims.difference m s = BitVec.ofNat 8 (s.a.toNat + (255 - m.toNat) + Claims.cin s)) ∧
  (∀ v : Byte, Claims.completes (.sbcImm v) s (Claims.subtracted v 1 s)) ∧
  (∀ z : Byte, Claims.completes (.sbcZp z) s (Claims.subtracted (Claims.dataAt (.zp z) s) 1 s)) ∧
  (∀ z : Byte, Claims.completes (.sbcZpx z) s (Claims.subtracted (Claims.dataAt (.zpx z) s) 1 s)) ∧
  (∀ w : Word, Claims.completes (.sbcAbs w) s (Claims.subtracted (Claims.dataAt (.abs w) s) 2 s)) ∧
  (∀ w : Word, Claims.completes (.sbcAbx w) s (Claims.subtracted (Claims.dataAt (.abx w) s) 2 s)) ∧
  (∀ w : Word, Claims.completes (.sbcAby w) s (Claims.subtracted (Claims.dataAt (.aby w) s) 2 s)) ∧
  (∀ z : Byte, Claims.completes (.sbcIzx z) s (Claims.subtracted (Claims.dataAt (.izx z) s) 1 s)) ∧
  (∀ z : Byte, Claims.completes (.sbcIzy z) s (Claims.subtracted (Claims.dataAt (.izy z) s) 1 s))

/-- INC, INX and INY complete and add exactly 1 modulo 256, with SetZN and no other flag, and nothing decrements. Rules
R160. No decrement: whatever changes X, Y or a byte of memory is a load, a store, JSR's push, or adds 1. -/
def Obligations.IncrementsAddOne : Prop :=
  ∀ s : State,
  (∀ (i : Instr) (t : State), exec i s = .next t →
    (t.x = s.x ∨ i.op = .ldx ∨ t.x = Claims.plusOne s.x) ∧
    (t.y = s.y ∨ i.op = .ldy ∨ t.y = Claims.plusOne s.y) ∧
    ∀ addr : Word, t.mem.read addr = s.mem.read addr ∨ i.op ∈ [Op.sta, Op.stx, Op.sty, Op.jsr] ∨
      t.mem.read addr = Claims.plusOne (s.mem.read addr)) ∧
  (∀ z : Byte, Claims.completes (.incZp z) s (Claims.incremented (.zp z) 1 s)) ∧
  (∀ z : Byte, Claims.completes (.incZpx z) s (Claims.incremented (.zpx z) 1 s)) ∧
  (∀ w : Word, Claims.completes (.incAbs w) s (Claims.incremented (.abs w) 2 s)) ∧
  (∀ w : Word, Claims.completes (.incAbx w) s (Claims.incremented (.abx w) 2 s)) ∧
  Claims.completes .inx s { s with x := Claims.plusOne s.x, flags := Claims.zn (Claims.plusOne s.x) s } ∧
  Claims.completes .iny s { s with y := Claims.plusOne s.y, flags := Claims.zn (Claims.plusOne s.y) s }

/-- SEC and CLC complete and write C to 1 and to 0, and nothing else. Rests on 46_carry_flag.md. For every state exec
.sec answers the state with C = 1 and exec .clc the state with C = 0; nothing else changes but the countdown (R170,
R171; their opcode bytes, decision D2, are no part of this statement). -/
def Obligations.SecAndClcWriteCarryOnly : Prop :=
  ∀ s : State,
  Claims.completes .sec s { s with flags := { s.flags with c := true } } ∧
  Claims.completes .clc s { s with flags := { s.flags with c := false } }

/-- push_byte writes the cell SP names and then decrements; pop_byte increments and then reads. Rests on
47_subroutine.md section 2 and the decisions D6 (stack page) and D7 (pop at the wrap). -/
def Obligations.PushAndPopMoveOneByte : Prop :=
  ∀ (s : State) (v : Byte),
  ((s.pushByte v).mem.read (Claims.cell s.sp) = v ∧
    (∀ addr : Word, addr ≠ Claims.cell s.sp → (s.pushByte v).mem.read addr = s.mem.read addr) ∧
    s.pushByte v = { s with
      mem := (s.pushByte v).mem, sp := BitVec.ofInt 8 ((s.sp.toNat : Int) - 1),
      cyclesRemaining := s.cyclesRemaining - 1 }) ∧
  (s.popByte.1 = s.mem.read (Claims.cell (BitVec.ofNat 8 (s.sp.toNat + 1))) ∧
    s.popByte.2 = { s with
      sp := BitVec.ofNat 8 (s.sp.toNat + 1), cyclesRemaining := s.cyclesRemaining - 1 })

/-- After push_word the low byte lies at 0x0100 + SP and the high byte in the next lower cell of the ring. Rests on
47_subroutine.md section 2 and decision D6 (stack page). -/
def Obligations.PushWordLeavesLowByteHigher : Prop :=
  ∀ (s : State) (w : Word),
  (s.pushWord w).mem.read (Claims.cell s.sp) = BitVec.ofNat 8 (w.toNat % 256) ∧
  (s.pushWord w).mem.read (Claims.cell (s.sp - 1#8)) = BitVec.ofNat 8 (w.toNat / 256) ∧
  (s.pushWord w).sp = s.sp - 2#8 ∧
  (∀ addr : Word, addr ≠ Claims.cell s.sp → addr ≠ Claims.cell (s.sp - 1#8) →
    (s.pushWord w).mem.read addr = s.mem.read addr)

/-- push_word then pop_word returns the word and restores SP, at every SP. Rests on 47_subroutine.md section 2. -/
def Obligations.PopAfterPushRestores : Prop :=
  ∀ (s : State) (w : Word), (s.pushWord w).popWord.1 = w ∧ (s.pushWord w).popWord.2.sp = s.sp

/-- JSR completes: it pushes the return address, low byte then high byte, and jumps to its target. Rests on
47_subroutine.md section 3, 92_eei_decisions.md D8, 92_eei_decisions.md D9. The return address is stated for both
values of JSR_PUSH (D8); both operand bytes precede the pushes (D9). -/
def Obligations.JsrPushesAndJumps : Prop :=
  ∀ (s : State) (target : Word), Claims.completes (.jsr target) s
  { s with
    mem := (s.mem.write (Claims.cell s.sp) (BitVec.ofNat 8 ((Claims.pushed s).toNat % 256))).write
      (Claims.cell (s.sp - 1#8)) (BitVec.ofNat 8 ((Claims.pushed s).toNat / 256))
    sp := s.sp - 2#8
    pc := target }

/-- RTS completes: PC is exactly the word popped, high byte first, and nothing is added. Rests on 47_subroutine.md
section 3. For every state exec answers a next state: PC is {byte at 0x0100 + (SP + 1) mod 256, byte at 0x0100 + (SP +
2) mod 256}, SP plus 2 modulo 256, nothing else changed but the countdown (R187; its opcode byte, decision D2, is no
part of this statement). -/
def Obligations.RtsLoadsThePoppedWord : Prop :=
  ∀ s : State, Claims.completes .rts s
  { s with
    pc := BitVec.ofNat 16 (256 * (s.mem.read (Claims.cell (s.sp + 1#8))).toNat +
      (s.mem.read (Claims.cell (s.sp + 2#8))).toNat)
    sp := s.sp + 2#8 }

/-- BRK completes: the run ends with the reason BREAK and nothing else is written. Rests on 48_break.md. For every
state exec .brk answers that state with halted = 1 and halt_reason = BREAK; registers, flags (B among them), memory,
report latches and the countdown stay (R200; the opcode byte is decision D22). -/
def Obligations.BrkHaltsSilently : Prop :=
  ∀ s : State, exec .brk s = .next { s with halted := true, haltReason := .breakOpcode }

/-- A call and a return pair: RTS continues where JSR's return address says, with SP restored. Rests on
47_subroutine.md section 3. -/
def Obligations.ReturnContinuesAfterCall : Prop :=
  ∀ (s t t' u : State) (target : Word), exec (.jsr target) s = .next t → t'.sp = t.sp →
  t'.mem.read (Claims.cell (t.sp + 1#8)) = t.mem.read (Claims.cell (t.sp + 1#8)) →
  t'.mem.read (Claims.cell (t.sp + 2#8)) = t.mem.read (Claims.cell (t.sp + 2#8)) →
  exec .rts t' = .next u → u.sp = s.sp ∧ u.pc = Claims.pushed s

/-- What the instructions that store nothing leave unchanged: loads, ADC, SBC, INX, INY, SEC, CLC. Rests on 42_load.md
section 1, 44_add_subtract.md section 2, 45_increment.md section 2, 46_carry_flag.md. -/
def Obligations.RegisterFormsFrame : Prop :=
  ∀ (i : Instr) (s t : State),
  i.op ∈ [Op.lda, Op.ldx, Op.ldy, Op.adc, Op.sbc, Op.inx, Op.iny, Op.sec, Op.clc] → exec i s = .next t →
  (∀ addr : Word, t.mem.read addr = s.mem.read addr) ∧ t.sp = s.sp ∧
  (i.op ∉ [Op.lda, Op.adc, Op.sbc] → t.a = s.a) ∧
  (i.op ∉ [Op.ldx, Op.inx] → t.x = s.x) ∧
  (i.op ∉ [Op.ldy, Op.iny] → t.y = s.y) ∧
  (i.op ∉ [Op.adc, Op.sbc, Op.sec, Op.clc] → t.flags.c = s.flags.c) ∧
  (i.op ∉ [Op.adc, Op.sbc] → t.flags.v = s.flags.v) ∧
  (i.op ∈ [Op.sec, Op.clc] → t.flags.z = s.flags.z ∧ t.flags.n = s.flags.n) ∧
  t.flags.i = s.flags.i ∧ t.flags.d = s.flags.d ∧ t.flags.b = s.flags.b ∧ Claims.controlUnchanged s t

/-- What the storing instructions leave unchanged: STA, STX, STY, INC. Rests on 43_store.md section 1, 45_increment.md
section 2. -/
def Obligations.StoringFormsFrame : Prop :=
  ∀ (i : Instr) (s t : State), i.op ∈ [Op.sta, Op.stx, Op.sty, Op.inc] → exec i s = .next t →
  (Claims.storeTarget i s).isSome = true ∧
  (∀ target : Word, Claims.storeTarget i s = some target →
    ∀ addr : Word, addr ≠ target → t.mem.read addr = s.mem.read addr) ∧
  t.a = s.a ∧ t.x = s.x ∧ t.y = s.y ∧ t.sp = s.sp ∧
  (i.op ≠ .inc → t.flags = s.flags) ∧
  t.flags.c = s.flags.c ∧ t.flags.v = s.flags.v ∧
  t.flags.i = s.flags.i ∧ t.flags.d = s.flags.d ∧ t.flags.b = s.flags.b ∧ Claims.controlUnchanged s t

/-- What JSR, RTS and BRK leave unchanged. Rests on 47_subroutine.md section 3, 48_break.md. -/
def Obligations.StackFormsFrame : Prop :=
  ∀ (i : Instr) (s t : State), i.op ∈ [Op.jsr, Op.rts, Op.brk] → exec i s = .next t →
  t.a = s.a ∧ t.x = s.x ∧ t.y = s.y ∧ t.flags = s.flags ∧
  (∀ addr : Word, i.op ≠ .jsr ∨ (addr ≠ Claims.cell s.sp ∧ addr ≠ Claims.cell (s.sp - 1#8)) →
    t.mem.read addr = s.mem.read addr) ∧
  (i.op = .brk → t.sp = s.sp ∧ t.pc = s.pc) ∧
  (i.op ≠ .brk → Claims.controlUnchanged s t) ∧
  t.faultByte = s.faultByte ∧ t.faultAddr = s.faultAddr ∧ t.exitRequest = s.exitRequest ∧ t.paused = s.paused ∧
  t.debugEnable = s.debugEnable ∧ t.debugInput = s.debugInput ∧ t.config = s.config

/-- A step runs the instruction the bytes at PC decode to. Rests on 40_dispatcher.md section 1, 00_scope.md section 5.
The entry convention is 00_scope.md R12's (log entry 8); that the counter is 0 after the handler whatever count the table
has is decision D5 (log entry 15). -/
def Obligations.StepRunsTheDecodedInstruction : Prop :=
  ∀ (s : State) (i : Instr), Claims.ready s → Claims.decodedAt s.pc s = .instr i →
  i.wellFormed = true ∧ ∃ t, step s = .next t ∧ Claims.handled i s.pc { s with pc := s.pc + 1#16 } t

/-- A byte with no row halts the engine with its value and address, and nothing else raises that halt. Rests on
60_exceptions.md section 1 and the decisions D14 (PC at the halt) and D17 (the latches). -/
def Obligations.UnrecognizedOpcodeHalts : Prop :=
  (∀ (s : State) (b : Byte), Claims.ready s → Claims.decodedAt s.pc s = .unrecognized b →
    b = s.mem.read s.pc ∧
    step s = .next { s with
      pc := s.pc + 1#16, faultByte := some b, faultAddr := some s.pc,
      halted := true, haltReason := .unrecognizedOpcode }) ∧
  (∀ s t : State, step s = .next t → s.haltReason ≠ .unrecognizedOpcode → t.haltReason = .unrecognizedOpcode →
    ∃ b, lookupOpcode s.config.optab b = none ∧ b = s.mem.read (t.pc - 1#16) ∧
      t.faultByte = some b ∧ t.faultAddr = some (t.pc - 1#16) ∧ t.halted = true)

/-- A fetched break halts with the reason BREAK and PC one past its address. Rules R211. -/
def Obligations.BreakHaltsPastItsByte : Prop :=
  ∀ s : State, Claims.ready s → s.cyclesRemaining = 0 → Claims.decodedAt s.pc s = .instr .brk →
  ∃ t, step s = .next t ∧ t.cyclesRemaining = 0 ∧
    t = { s with pc := s.pc + 1#16, halted := true, haltReason := .breakOpcode }

/-- A step never fails part-way: from every state it answers a next state. Rests on 40_dispatcher.md section 2,
60_exceptions.md section 2. That the halt is itself a next state, and a halted or waiting engine steps to itself, is
the model's choice (log entries 5, 6, 7). -/
def Obligations.StepAlwaysAnswersNext : Prop :=
  (∀ s : State, ∃ t, step s = .next t) ∧ ∀ (i : Instr) (s : State), ∃ t, exec i s = .next t

/-- A halted engine never changes again. Rests on 60_exceptions.md section 1. That the model's step of a halted engine
answers the same state is its choice (log entry 5); that nothing changes is the spec's. -/
def Obligations.HaltedEngineIsFinal : Prop :=
  ∀ (k : Nat) (s t : State), s.halted = true → reaches k s t → t = s

/-- A run ends at a break, at an unrecognised opcode, or by the exit command, each with its own reason. Rests on
60_exceptions.md section 1. The codes are 0 to 3 (D17). -/
def Obligations.RunEndsInThreeWays : Prop :=
  (∀ s t : State, step s = .next t → s.halted = false → t.halted = true →
    (t.haltReason = .breakOpcode ∧ Claims.current s = .instr .brk) ∨
    (t.haltReason = .unrecognizedOpcode ∧
      ∃ b, Claims.current s = .unrecognized b ∧ t.faultByte = some b ∧ t.faultAddr = some (t.pc - 1#16)) ∨
    (t.haltReason = .debugExit ∧ t.exitRequest = true)) ∧
  [HaltReason.running, .breakOpcode, .unrecognizedOpcode, .debugExit].map HaltReason.code = [0, 1, 2, 3]

/-- Every executed instruction ends with cycles_remaining 0, by construction. Rests on 40_dispatcher.md section 1,
70_reset_and_hazards.md section 4, 92_eei_decisions.md D5. With the counts of R270 the events of the schedule (the spec's
own, D5, log entry 15) use up N - 1 exactly, so that with the default table (D4, log entry 1) the step is exec alone. -/
def Obligations.PassEndsWithCountdownZero : Prop :=
  (∀ (s t : State) (i : Instr), i ≠ .brk → s.cyclesRemaining = Claims.started i s Claims.cyclesByMode →
    exec i s = .next t → t.cyclesRemaining = 0) ∧
  (∀ (s t : State) (i : Instr), Claims.ready s → Claims.decodedAt s.pc s = .instr i → i ≠ .brk → step s = .next t →
    t.cyclesRemaining = 0) ∧
  ∀ (s : State) (i : Instr), Claims.ready s → s.config.optab = defaultOptab → Claims.decodedAt s.pc s = .instr i →
    step s = exec i { s with
      pc := s.pc + 1#16, cyclesRemaining := Claims.started i s Claims.cyclesByMode }

/-- A pass moves PC by the instruction's length, except JSR, RTS and the terminal bytes. Rules R23. -/
def Obligations.ProgramCounterAdvancesByLength : Prop :=
  ∀ s t : State, Claims.ready s → step s = .next t →
  (∀ i, Claims.decodedAt s.pc s = .instr i → i.op ∉ [Op.jsr, Op.rts, Op.brk] →
    t.pc = BitVec.ofNat 16 (s.pc.toNat + i.length)) ∧
  (∀ target, Claims.decodedAt s.pc s = .instr (.jsr target) → t.pc = target) ∧
  (Claims.decodedAt s.pc s = .instr .rts → t.pc = s.popWord.1) ∧
  (Claims.decodedAt s.pc s = .instr .brk → t.pc = BitVec.ofNat 16 (s.pc.toNat + 1)) ∧
  (∀ b, Claims.decodedAt s.pc s = .unrecognized b → t.pc = BitVec.ofNat 16 (s.pc.toNat + 1))

/-- In every step each piece of state changes only under the operations the spec lists as its writers. Rests on
10_state.md section 1, 10_state.md section 3, 10_state.md section 4, 10_state.md section 5. -/
def Obligations.OnlyTheListedOperationsWrite : Prop :=
  ∀ s t : State, step s = .next t →
  let under (ops : List Op) : Prop := ∃ i, Claims.current s = .instr i ∧ i.op ∈ ops
  (t.a ≠ s.a → under [.lda, .adc, .sbc]) ∧
  (t.x ≠ s.x → under [.ldx, .inx]) ∧
  (t.y ≠ s.y → under [.ldy, .iny]) ∧
  (t.sp ≠ s.sp → under [.jsr, .rts]) ∧
  ((∃ addr : Word, t.mem.read addr ≠ s.mem.read addr) → under [.sta, .stx, .sty, .inc, .jsr]) ∧
  (t.flags.c ≠ s.flags.c → under [.adc, .sbc, .sec, .clc]) ∧
  (t.flags.v ≠ s.flags.v → under [.adc, .sbc]) ∧
  (t.flags.z ≠ s.flags.z ∨ t.flags.n ≠ s.flags.n →
    under [.adc, .sbc, .lda, .ldx, .ldy, .inc, .inx, .iny]) ∧
  (t.flags.i = s.flags.i ∧ t.flags.d = s.flags.d ∧ t.flags.b = s.flags.b) ∧
  (t.debugEnable = s.debugEnable ∧ t.config = s.config) ∧
  (s.exitRequest = true → t.exitRequest = true)

/-- No instruction reads a flag other than C: D, V, Z, N, I and B decide nothing. Rests on 10_state.md section 4,
44_add_subtract.md section 1. Each flag an instruction writes is written the same, and each it does not write is kept, in
both runs. -/
def Obligations.OnlyCarryIsRead : Prop :=
  ∀ (i : Instr) (s t : State) (f : Flags), f.c = s.flags.c → exec i s = .next t →
  let writesV : Prop := i.op ∈ [Op.adc, Op.sbc]
  let writesZN : Prop := writesV ∨
    (i.op ∈ [Op.lda, Op.ldx, Op.ldy, Op.inc, Op.inx, Op.iny] ∧ s.config.loadIncFlags = .zn)
  ∃ g : Flags, exec i { s with flags := f } = .next { t with flags := g } ∧ g.c = t.flags.c ∧
    (writesV → g.v = t.flags.v) ∧ (¬writesV → g.v = f.v ∧ t.flags.v = s.flags.v) ∧
    (writesZN → g.z = t.flags.z ∧ g.n = t.flags.n) ∧
    (¬writesZN → g.z = f.z ∧ g.n = f.n ∧ t.flags.z = s.flags.z ∧ t.flags.n = s.flags.n) ∧
    g.i = f.i ∧ g.d = f.d ∧ g.b = f.b ∧
    t.flags.i = s.flags.i ∧ t.flags.d = s.flags.d ∧ t.flags.b = s.flags.b

/-- No outcome depends on cycles_remaining. Rests on 10_state.md section 5, 60_exceptions.md section 4. -/
def Obligations.CountdownIsNotRead : Prop :=
  ∀ (s t : State) (n : Int), step s = .next t →
  ∃ m : Int, step { s with cyclesRemaining := n } = .next { t with cyclesRemaining := m }

/-- A byte STA stores is what the very next fetch reads at its address. Rests on 20_memory.md section 7. -/
def Obligations.StoredByteIsFetched : Prop :=
  ∀ (s t : State) (target : Word), exec (.staAbs target) s = .next t →
  let seen (addr : Word) : Byte := if addr = target then s.a else s.mem.read addr
  Claims.decodedAt t.pc t = decodeBytesIn s.config.optab (seen t.pc) (seen (t.pc + 1#16)) (seen (t.pc + 2#16))

/-- Every step keeps the invariant of reachable states. Rests on 10_state.md section 7, 60_exceptions.md section 1,
60_exceptions.md section 4. -/
def Obligations.StepKeepsTheInvariant : Prop :=
  ∀ s t : State, s.Inv → step s = .next t → t.Inv

/-- The reset state and every launched state have the invariant. Rests on 10_state.md section 7,
70_reset_and_hazards.md section 2. The state after creation meets the invariant, and so does the state launch answers
for every image, DEBUG_ENABLE, parameters and operator input (reset values of the latches: decision D18, log entry
12). -/
def Obligations.LaunchedEngineHasTheInvariant : Prop :=
  State.reset.Inv ∧
  ∀ (cfg : Config) (dbg : Bool) (input : List DebugCommand) (image : List Byte) (t : State),
    launch cfg dbg input image = .next t → t.Inv

/-- With exit_request set, the loop head halts the engine with DEBUG_EXIT before any fetch. Rules R213. -/
def Obligations.ExitIsSeenAtTheLoopHead : Prop :=
  ∀ s : State, s.atLoopHead → s.exitRequest = true → s.config.exitSample = .loopHead →
  step s = .next { s with halted := true, haltReason := .debugExit }

/-- With DEBUG_ENABLE on, the engine pauses once after every fetch, and shows what it fetched. Rests on
40_dispatcher.md section 1, 60_exceptions.md section 5. That the pause ends a step is the model's choice (log entry
9). -/
def Obligations.GatePausesAfterTheFetch : Prop :=
  ∀ s : State, s.atLoopHead → s.debugEnable = true → s.exitRequest = false →
  step s = .next { s with pc := s.pc + 1#16, paused := true } ∧
  pauseView { s with pc := s.pc + 1#16, paused := true } =
    ⟨s.mem.read s.pc, s.pc, Claims.decodedAt s.pc s, s.a, s.x, s.y, s.pc + 1#16, s.sp, s.flags⟩

/-- Inspect, help and malformed commands leave the engine paused and unchanged, and answer as the spec says. Rests on
60_exceptions.md section 5, 92_eei_decisions.md D24. At a pause, dump stack, dump memory, help and a malformed line
are read from the operator's input (held as a list, log entry 4) and change nothing else; dump stack answers the 256
bytes of 0x0100 to 0x01FF, help the command list, a malformed line or a bound above 0xFFFF MalformedDebugCommand
(D24). -/
def Obligations.InspectionChangesNothing : Prop :=
  ∀ (s : State) (c : DebugCommand) (rest : List DebugCommand), s.halted = false → s.paused = true →
  s.debugInput = c :: rest → c ≠ .step → c ≠ .exit →
  step s = .next { s with debugInput := rest } ∧
  (c = .help → debugResponse c s = .commandList) ∧
  (c = .dumpStack → debugResponse c s =
    .bytes ((List.range 256).map fun k => s.mem.read (BitVec.ofNat 16 (0x0100 + k)))) ∧
  (c = .malformed → debugResponse c s = .malformedDebugCommand) ∧
  (∀ first last, c = .dumpMemory first last → (65535 < first ∨ 65535 < last) →
    debugResponse c s = .malformedDebugCommand)

/-- dump memory answers the bytes from its first bound to its last, both included; none for a reversed range. Rests on
60_exceptions.md section 5, 92_eei_decisions.md D24. For bounds within 0xFFFF, the answer is a list with one byte for
each address from first to last, the byte memory holds there; empty when first is above last (decision D24). -/
def Obligations.DumpMemoryIsInclusive : Prop :=
  ∀ (s : State) (first last : Nat), first ≤ 65535 → last ≤ 65535 →
  ∃ bs, debugResponse (.dumpMemory first last) s = .bytes bs ∧ bs.length = last + 1 - first ∧
    ∀ k, first + k ≤ last → bs[k]? = some (s.mem.read (BitVec.ofNat 16 (first + k)))

/-- A pause the operator never answers holds the engine for ever, not halted. Rests on 60_exceptions.md section 5,
93_implementation_defined.md part 1. That the model's step answers the same state is its choice (log entry 6). -/
def Obligations.PauseHoldsWithoutACommand : Prop :=
  ∀ (k : Nat) (s t : State), s.halted = false → s.paused = true → s.debugInput = [] → reaches k s t →
  t = s ∧ t.halted = false

/-- The step command releases the pause and the shown instruction runs, once; a shown terminal byte ends the run.
Rests on 60_exceptions.md section 5, 40_dispatcher.md section 1. That the command is the head of a list the step consumes
(log entry 4) and that one step from the pause finishes the pass (log entry 9) are the model's choices. -/
def Obligations.StepCommandRunsTheShownInstruction : Prop :=
  ∀ (s : State) (rest : List DebugCommand), s.halted = false → s.paused = true → s.exitRequest = false →
  s.debugInput = .step :: rest →
  (∀ i, Claims.decodedAt (s.pc - 1#16) s = .instr i →
    ∃ t, step s = .next t ∧ Claims.handled i (s.pc - 1#16) { s with paused := false, debugInput := rest } t ∧
      (i = .brk → t.halted = true ∧ t.haltReason = .breakOpcode)) ∧
  (∀ b, Claims.decodedAt (s.pc - 1#16) s = .unrecognized b →
    step s = .next { s with
      paused := false, debugInput := rest, faultByte := some b, faultAddr := some (s.pc - 1#16),
      halted := true, haltReason := .unrecognizedOpcode })

/-- The exit command ends the run: under loop_head after the shown instruction has run, unless the shown byte itself ends
it; under after_gate at once. Rests on 60_exceptions.md section 1, 60_exceptions.md section 5, 92_eei_decisions.md D16.
Both values of the parameter (D16) are stated. That the command is the head of a list the step consumes (log entry 4) and
that one step from the pause finishes the pass (log entry 9) are the model's choices. -/
def Obligations.ExitCommandEndsTheRun : Prop :=
  ∀ (s : State) (rest : List DebugCommand), s.halted = false → s.paused = true → s.debugInput = .exit :: rest →
  (s.config.exitSample = .loopHead → ∀ i, Claims.decodedAt (s.pc - 1#16) s = .instr i →
    ∃ t, step s = .next t ∧
      Claims.handled i (s.pc - 1#16) { s with paused := false, debugInput := rest, exitRequest := true } t ∧
      (i ≠ .brk → t.halted = false ∧ step t = .next { t with halted := true, haltReason := .debugExit }) ∧
      (i = .brk → t.halted = true ∧ t.haltReason = .breakOpcode)) ∧
  (s.config.exitSample = .loopHead → ∀ b, Claims.decodedAt (s.pc - 1#16) s = .unrecognized b →
    step s = .next { s with
      paused := false, debugInput := rest, exitRequest := true, faultByte := some b, faultAddr := some (s.pc - 1#16),
      halted := true, haltReason := .unrecognizedOpcode }) ∧
  (s.config.exitSample = .afterGate →
    step s = .next { s with
      paused := false, debugInput := rest, exitRequest := true, halted := true, haltReason := .debugExit })

/-- Stepping through the debug gate, with any inspection on the way, does what the engine does without the gate. Rests
on 60_exceptions.md section 5, 40_dispatcher.md section 2. The count of steps, one for the fetch and one for each command,
is the model's choice (log entries 4 and 9). -/
def Obligations.GateIsTransparent : Prop :=
  ∀ (s : State) (cs rest : List DebugCommand), s.atLoopHead → s.debugEnable = true → s.exitRequest = false →
  (∀ c ∈ cs, c ≠ .step ∧ c ≠ .exit) → s.debugInput = cs ++ .step :: rest →
  ∃ u, step { s with debugEnable := false, debugInput := rest } = .next u ∧
    reaches (cs.length + 2) s { u with debugEnable := true }

/-- Untouched memory stops the run: from reset with nothing loaded, one step halts with BREAK at PC 0x0201. Rests on
48_break.md, 30_encoding.md section 3. The break byte is decision D22. -/
def Obligations.UntouchedMemoryHaltsSilently : Prop :=
  ∃ t, launch defaultConfig false [] [] = .next t ∧
  step t = .next { State.reset with pc := 0x0201#16, halted := true, haltReason := .breakOpcode }

/-- A substituted opcode table is obeyed: each of its rows decides what its byte does, and no other byte does anything.
Rests on 00_scope.md section 4, 30_encoding.md section 3. For every well-formed value of the parameter OPTAB; what well
formed means is log entry 1. -/
def Obligations.SubstitutedTableIsObeyed : Prop :=
  ∀ (cfg : Config) (b0 b1 b2 : Byte), cfg.wellFormed = true →
  ∃ t, launch cfg false [] [b0, b1, b2] = .next t ∧ Claims.ready t ∧ t.pc = 0x0200#16 ∧
  (∀ r ∈ cfg.optab, r.byte = b0 → ∃ i, Claims.decodedAt t.pc t = .instr i ∧ i.op = r.op ∧ i.mode = r.mode ∧
    i.length = r.len ∧ i.operandFields = [b1, b2].take (r.len - 1) ∧ Claims.countAt t.pc t = r.cyc) ∧
  ((∀ r ∈ cfg.optab, r.byte ≠ b0) → Claims.decodedAt t.pc t = .unrecognized b0)

/-- An opcode table with no meaning is refused by name. Rests on 00_scope.md section 4, 30_encoding.md section 1. That no
run starts with a row whose operation's rule does not list its mode, whose length or count does not fit, or with two rows
for one byte, is the model's choice (log entry 1). -/
def Obligations.IllFormedTableIsRefused : Prop :=
  ∀ (cfg : Config) (dbg : Bool) (input : List DebugCommand) (image : List Byte),
  (launch cfg dbg input image = .refused .opcodeTableIllFormed ↔ cfg.wellFormed = false) ∧
  ((∃ r ∈ cfg.optab, r.mode ∉ r.op.modes ∨ r.len ≠ 1 + r.mode.operandBytes ∨ (r.cyc = none ↔ r.op ≠ .brk) ∨ r.cyc = some 0) ∨
    ¬(cfg.optab.map OpRow.byte).Nodup ↔ cfg.wellFormed = false)
end

