-- ==== Sys2Proof/Laws/State.lean ====
section
/-! SUPPORT. One lemma per field per update of the state, so that no proof unfolds a record update. -/

namespace Sys2Proof.Machine

variable (s : State)

/-! `State.setPC`. -/

@[simp] theorem State.setPC_a (v : Word) : (s.setPC v).a = s.a := rfl
@[simp] theorem State.setPC_x (v : Word) : (s.setPC v).x = s.x := rfl
@[simp] theorem State.setPC_y (v : Word) : (s.setPC v).y = s.y := rfl
@[simp] theorem State.setPC_pc (v : Word) : (s.setPC v).pc = v := rfl
@[simp] theorem State.setPC_sp (v : Word) : (s.setPC v).sp = s.sp := rfl
@[simp] theorem State.setPC_flags (v : Word) : (s.setPC v).flags = s.flags := rfl
@[simp] theorem State.setPC_mem (v : Word) : (s.setPC v).mem = s.mem := rfl
@[simp] theorem State.setPC_cyclesRemaining (v : Word) : (s.setPC v).cyclesRemaining = s.cyclesRemaining := rfl
@[simp] theorem State.setPC_halted (v : Word) : (s.setPC v).halted = s.halted := rfl
@[simp] theorem State.setPC_haltReason (v : Word) : (s.setPC v).haltReason = s.haltReason := rfl
@[simp] theorem State.setPC_faultByte (v : Word) : (s.setPC v).faultByte = s.faultByte := rfl
@[simp] theorem State.setPC_faultAddr (v : Word) : (s.setPC v).faultAddr = s.faultAddr := rfl
@[simp] theorem State.setPC_exitRequest (v : Word) : (s.setPC v).exitRequest = s.exitRequest := rfl
@[simp] theorem State.setPC_paused (v : Word) : (s.setPC v).paused = s.paused := rfl
@[simp] theorem State.setPC_debugEnable (v : Word) : (s.setPC v).debugEnable = s.debugEnable := rfl
@[simp] theorem State.setPC_debugInput (v : Word) : (s.setPC v).debugInput = s.debugInput := rfl
@[simp] theorem State.setPC_config (v : Word) : (s.setPC v).config = s.config := rfl

/-! `State.setSP`. -/

@[simp] theorem State.setSP_a (v : Byte) : (s.setSP v).a = s.a := rfl
@[simp] theorem State.setSP_x (v : Byte) : (s.setSP v).x = s.x := rfl
@[simp] theorem State.setSP_y (v : Byte) : (s.setSP v).y = s.y := rfl
@[simp] theorem State.setSP_pc (v : Byte) : (s.setSP v).pc = s.pc := rfl
@[simp] theorem State.setSP_sp (v : Byte) : (s.setSP v).sp = v := rfl
@[simp] theorem State.setSP_flags (v : Byte) : (s.setSP v).flags = s.flags := rfl
@[simp] theorem State.setSP_mem (v : Byte) : (s.setSP v).mem = s.mem := rfl
@[simp] theorem State.setSP_cyclesRemaining (v : Byte) : (s.setSP v).cyclesRemaining = s.cyclesRemaining := rfl
@[simp] theorem State.setSP_halted (v : Byte) : (s.setSP v).halted = s.halted := rfl
@[simp] theorem State.setSP_haltReason (v : Byte) : (s.setSP v).haltReason = s.haltReason := rfl
@[simp] theorem State.setSP_faultByte (v : Byte) : (s.setSP v).faultByte = s.faultByte := rfl
@[simp] theorem State.setSP_faultAddr (v : Byte) : (s.setSP v).faultAddr = s.faultAddr := rfl
@[simp] theorem State.setSP_exitRequest (v : Byte) : (s.setSP v).exitRequest = s.exitRequest := rfl
@[simp] theorem State.setSP_paused (v : Byte) : (s.setSP v).paused = s.paused := rfl
@[simp] theorem State.setSP_debugEnable (v : Byte) : (s.setSP v).debugEnable = s.debugEnable := rfl
@[simp] theorem State.setSP_debugInput (v : Byte) : (s.setSP v).debugInput = s.debugInput := rfl
@[simp] theorem State.setSP_config (v : Byte) : (s.setSP v).config = s.config := rfl

/-! `State.setFlags`. -/

@[simp] theorem State.setFlags_a (f : Flags) : (s.setFlags f).a = s.a := rfl
@[simp] theorem State.setFlags_x (f : Flags) : (s.setFlags f).x = s.x := rfl
@[simp] theorem State.setFlags_y (f : Flags) : (s.setFlags f).y = s.y := rfl
@[simp] theorem State.setFlags_pc (f : Flags) : (s.setFlags f).pc = s.pc := rfl
@[simp] theorem State.setFlags_sp (f : Flags) : (s.setFlags f).sp = s.sp := rfl
@[simp] theorem State.setFlags_flags (f : Flags) : (s.setFlags f).flags = f := rfl
@[simp] theorem State.setFlags_mem (f : Flags) : (s.setFlags f).mem = s.mem := rfl
@[simp] theorem State.setFlags_cyclesRemaining (f : Flags) : (s.setFlags f).cyclesRemaining = s.cyclesRemaining := rfl
@[simp] theorem State.setFlags_halted (f : Flags) : (s.setFlags f).halted = s.halted := rfl
@[simp] theorem State.setFlags_haltReason (f : Flags) : (s.setFlags f).haltReason = s.haltReason := rfl
@[simp] theorem State.setFlags_faultByte (f : Flags) : (s.setFlags f).faultByte = s.faultByte := rfl
@[simp] theorem State.setFlags_faultAddr (f : Flags) : (s.setFlags f).faultAddr = s.faultAddr := rfl
@[simp] theorem State.setFlags_exitRequest (f : Flags) : (s.setFlags f).exitRequest = s.exitRequest := rfl
@[simp] theorem State.setFlags_paused (f : Flags) : (s.setFlags f).paused = s.paused := rfl
@[simp] theorem State.setFlags_debugEnable (f : Flags) : (s.setFlags f).debugEnable = s.debugEnable := rfl
@[simp] theorem State.setFlags_debugInput (f : Flags) : (s.setFlags f).debugInput = s.debugInput := rfl
@[simp] theorem State.setFlags_config (f : Flags) : (s.setFlags f).config = s.config := rfl

/-! `State.setMem`. -/

@[simp] theorem State.setMem_a (m : Memory) : (s.setMem m).a = s.a := rfl
@[simp] theorem State.setMem_x (m : Memory) : (s.setMem m).x = s.x := rfl
@[simp] theorem State.setMem_y (m : Memory) : (s.setMem m).y = s.y := rfl
@[simp] theorem State.setMem_pc (m : Memory) : (s.setMem m).pc = s.pc := rfl
@[simp] theorem State.setMem_sp (m : Memory) : (s.setMem m).sp = s.sp := rfl
@[simp] theorem State.setMem_flags (m : Memory) : (s.setMem m).flags = s.flags := rfl
@[simp] theorem State.setMem_mem (m : Memory) : (s.setMem m).mem = m := rfl
@[simp] theorem State.setMem_cyclesRemaining (m : Memory) : (s.setMem m).cyclesRemaining = s.cyclesRemaining := rfl
@[simp] theorem State.setMem_halted (m : Memory) : (s.setMem m).halted = s.halted := rfl
@[simp] theorem State.setMem_haltReason (m : Memory) : (s.setMem m).haltReason = s.haltReason := rfl
@[simp] theorem State.setMem_faultByte (m : Memory) : (s.setMem m).faultByte = s.faultByte := rfl
@[simp] theorem State.setMem_faultAddr (m : Memory) : (s.setMem m).faultAddr = s.faultAddr := rfl
@[simp] theorem State.setMem_exitRequest (m : Memory) : (s.setMem m).exitRequest = s.exitRequest := rfl
@[simp] theorem State.setMem_paused (m : Memory) : (s.setMem m).paused = s.paused := rfl
@[simp] theorem State.setMem_debugEnable (m : Memory) : (s.setMem m).debugEnable = s.debugEnable := rfl
@[simp] theorem State.setMem_debugInput (m : Memory) : (s.setMem m).debugInput = s.debugInput := rfl
@[simp] theorem State.setMem_config (m : Memory) : (s.setMem m).config = s.config := rfl

/-! `State.setCycles`. -/

@[simp] theorem State.setCycles_a (n : Int) : (s.setCycles n).a = s.a := rfl
@[simp] theorem State.setCycles_x (n : Int) : (s.setCycles n).x = s.x := rfl
@[simp] theorem State.setCycles_y (n : Int) : (s.setCycles n).y = s.y := rfl
@[simp] theorem State.setCycles_pc (n : Int) : (s.setCycles n).pc = s.pc := rfl
@[simp] theorem State.setCycles_sp (n : Int) : (s.setCycles n).sp = s.sp := rfl
@[simp] theorem State.setCycles_flags (n : Int) : (s.setCycles n).flags = s.flags := rfl
@[simp] theorem State.setCycles_mem (n : Int) : (s.setCycles n).mem = s.mem := rfl
@[simp] theorem State.setCycles_cyclesRemaining (n : Int) : (s.setCycles n).cyclesRemaining = n := rfl
@[simp] theorem State.setCycles_halted (n : Int) : (s.setCycles n).halted = s.halted := rfl
@[simp] theorem State.setCycles_haltReason (n : Int) : (s.setCycles n).haltReason = s.haltReason := rfl
@[simp] theorem State.setCycles_faultByte (n : Int) : (s.setCycles n).faultByte = s.faultByte := rfl
@[simp] theorem State.setCycles_faultAddr (n : Int) : (s.setCycles n).faultAddr = s.faultAddr := rfl
@[simp] theorem State.setCycles_exitRequest (n : Int) : (s.setCycles n).exitRequest = s.exitRequest := rfl
@[simp] theorem State.setCycles_paused (n : Int) : (s.setCycles n).paused = s.paused := rfl
@[simp] theorem State.setCycles_debugEnable (n : Int) : (s.setCycles n).debugEnable = s.debugEnable := rfl
@[simp] theorem State.setCycles_debugInput (n : Int) : (s.setCycles n).debugInput = s.debugInput := rfl
@[simp] theorem State.setCycles_config (n : Int) : (s.setCycles n).config = s.config := rfl

/-! `State.setExitRequest`. -/

@[simp] theorem State.setExitRequest_a (b : Bool) : (s.setExitRequest b).a = s.a := rfl
@[simp] theorem State.setExitRequest_x (b : Bool) : (s.setExitRequest b).x = s.x := rfl
@[simp] theorem State.setExitRequest_y (b : Bool) : (s.setExitRequest b).y = s.y := rfl
@[simp] theorem State.setExitRequest_pc (b : Bool) : (s.setExitRequest b).pc = s.pc := rfl
@[simp] theorem State.setExitRequest_sp (b : Bool) : (s.setExitRequest b).sp = s.sp := rfl
@[simp] theorem State.setExitRequest_flags (b : Bool) : (s.setExitRequest b).flags = s.flags := rfl
@[simp] theorem State.setExitRequest_mem (b : Bool) : (s.setExitRequest b).mem = s.mem := rfl
@[simp] theorem State.setExitRequest_cyclesRemaining (b : Bool) : (s.setExitRequest b).cyclesRemaining = s.cyclesRemaining := rfl
@[simp] theorem State.setExitRequest_halted (b : Bool) : (s.setExitRequest b).halted = s.halted := rfl
@[simp] theorem State.setExitRequest_haltReason (b : Bool) : (s.setExitRequest b).haltReason = s.haltReason := rfl
@[simp] theorem State.setExitRequest_faultByte (b : Bool) : (s.setExitRequest b).faultByte = s.faultByte := rfl
@[simp] theorem State.setExitRequest_faultAddr (b : Bool) : (s.setExitRequest b).faultAddr = s.faultAddr := rfl
@[simp] theorem State.setExitRequest_exitRequest (b : Bool) : (s.setExitRequest b).exitRequest = b := rfl
@[simp] theorem State.setExitRequest_paused (b : Bool) : (s.setExitRequest b).paused = s.paused := rfl
@[simp] theorem State.setExitRequest_debugEnable (b : Bool) : (s.setExitRequest b).debugEnable = s.debugEnable := rfl
@[simp] theorem State.setExitRequest_debugInput (b : Bool) : (s.setExitRequest b).debugInput = s.debugInput := rfl
@[simp] theorem State.setExitRequest_config (b : Bool) : (s.setExitRequest b).config = s.config := rfl

/-! `State.setPaused`. -/

@[simp] theorem State.setPaused_a (b : Bool) : (s.setPaused b).a = s.a := rfl
@[simp] theorem State.setPaused_x (b : Bool) : (s.setPaused b).x = s.x := rfl
@[simp] theorem State.setPaused_y (b : Bool) : (s.setPaused b).y = s.y := rfl
@[simp] theorem State.setPaused_pc (b : Bool) : (s.setPaused b).pc = s.pc := rfl
@[simp] theorem State.setPaused_sp (b : Bool) : (s.setPaused b).sp = s.sp := rfl
@[simp] theorem State.setPaused_flags (b : Bool) : (s.setPaused b).flags = s.flags := rfl
@[simp] theorem State.setPaused_mem (b : Bool) : (s.setPaused b).mem = s.mem := rfl
@[simp] theorem State.setPaused_cyclesRemaining (b : Bool) : (s.setPaused b).cyclesRemaining = s.cyclesRemaining := rfl
@[simp] theorem State.setPaused_halted (b : Bool) : (s.setPaused b).halted = s.halted := rfl
@[simp] theorem State.setPaused_haltReason (b : Bool) : (s.setPaused b).haltReason = s.haltReason := rfl
@[simp] theorem State.setPaused_faultByte (b : Bool) : (s.setPaused b).faultByte = s.faultByte := rfl
@[simp] theorem State.setPaused_faultAddr (b : Bool) : (s.setPaused b).faultAddr = s.faultAddr := rfl
@[simp] theorem State.setPaused_exitRequest (b : Bool) : (s.setPaused b).exitRequest = s.exitRequest := rfl
@[simp] theorem State.setPaused_paused (b : Bool) : (s.setPaused b).paused = b := rfl
@[simp] theorem State.setPaused_debugEnable (b : Bool) : (s.setPaused b).debugEnable = s.debugEnable := rfl
@[simp] theorem State.setPaused_debugInput (b : Bool) : (s.setPaused b).debugInput = s.debugInput := rfl
@[simp] theorem State.setPaused_config (b : Bool) : (s.setPaused b).config = s.config := rfl

/-! `State.setDebugInput`. -/

@[simp] theorem State.setDebugInput_a (q : List DebugCommand) : (s.setDebugInput q).a = s.a := rfl
@[simp] theorem State.setDebugInput_x (q : List DebugCommand) : (s.setDebugInput q).x = s.x := rfl
@[simp] theorem State.setDebugInput_y (q : List DebugCommand) : (s.setDebugInput q).y = s.y := rfl
@[simp] theorem State.setDebugInput_pc (q : List DebugCommand) : (s.setDebugInput q).pc = s.pc := rfl
@[simp] theorem State.setDebugInput_sp (q : List DebugCommand) : (s.setDebugInput q).sp = s.sp := rfl
@[simp] theorem State.setDebugInput_flags (q : List DebugCommand) : (s.setDebugInput q).flags = s.flags := rfl
@[simp] theorem State.setDebugInput_mem (q : List DebugCommand) : (s.setDebugInput q).mem = s.mem := rfl
@[simp] theorem State.setDebugInput_cyclesRemaining (q : List DebugCommand) : (s.setDebugInput q).cyclesRemaining = s.cyclesRemaining := rfl
@[simp] theorem State.setDebugInput_halted (q : List DebugCommand) : (s.setDebugInput q).halted = s.halted := rfl
@[simp] theorem State.setDebugInput_haltReason (q : List DebugCommand) : (s.setDebugInput q).haltReason = s.haltReason := rfl
@[simp] theorem State.setDebugInput_faultByte (q : List DebugCommand) : (s.setDebugInput q).faultByte = s.faultByte := rfl
@[simp] theorem State.setDebugInput_faultAddr (q : List DebugCommand) : (s.setDebugInput q).faultAddr = s.faultAddr := rfl
@[simp] theorem State.setDebugInput_exitRequest (q : List DebugCommand) : (s.setDebugInput q).exitRequest = s.exitRequest := rfl
@[simp] theorem State.setDebugInput_paused (q : List DebugCommand) : (s.setDebugInput q).paused = s.paused := rfl
@[simp] theorem State.setDebugInput_debugEnable (q : List DebugCommand) : (s.setDebugInput q).debugEnable = s.debugEnable := rfl
@[simp] theorem State.setDebugInput_debugInput (q : List DebugCommand) : (s.setDebugInput q).debugInput = q := rfl
@[simp] theorem State.setDebugInput_config (q : List DebugCommand) : (s.setDebugInput q).config = s.config := rfl

/-! `State.halt`. -/

@[simp] theorem State.halt_a (r : HaltReason) : (s.halt r).a = s.a := rfl
@[simp] theorem State.halt_x (r : HaltReason) : (s.halt r).x = s.x := rfl
@[simp] theorem State.halt_y (r : HaltReason) : (s.halt r).y = s.y := rfl
@[simp] theorem State.halt_pc (r : HaltReason) : (s.halt r).pc = s.pc := rfl
@[simp] theorem State.halt_sp (r : HaltReason) : (s.halt r).sp = s.sp := rfl
@[simp] theorem State.halt_flags (r : HaltReason) : (s.halt r).flags = s.flags := rfl
@[simp] theorem State.halt_mem (r : HaltReason) : (s.halt r).mem = s.mem := rfl
@[simp] theorem State.halt_cyclesRemaining (r : HaltReason) : (s.halt r).cyclesRemaining = s.cyclesRemaining := rfl
@[simp] theorem State.halt_halted (r : HaltReason) : (s.halt r).halted = true := rfl
@[simp] theorem State.halt_haltReason (r : HaltReason) : (s.halt r).haltReason = r := rfl
@[simp] theorem State.halt_faultByte (r : HaltReason) : (s.halt r).faultByte = s.faultByte := rfl
@[simp] theorem State.halt_faultAddr (r : HaltReason) : (s.halt r).faultAddr = s.faultAddr := rfl
@[simp] theorem State.halt_exitRequest (r : HaltReason) : (s.halt r).exitRequest = s.exitRequest := rfl
@[simp] theorem State.halt_paused (r : HaltReason) : (s.halt r).paused = s.paused := rfl
@[simp] theorem State.halt_debugEnable (r : HaltReason) : (s.halt r).debugEnable = s.debugEnable := rfl
@[simp] theorem State.halt_debugInput (r : HaltReason) : (s.halt r).debugInput = s.debugInput := rfl
@[simp] theorem State.halt_config (r : HaltReason) : (s.halt r).config = s.config := rfl

/-! `State.setReport`. -/

@[simp] theorem State.setReport_a (b : Byte) (w : Word) : (s.setReport b w).a = s.a := rfl
@[simp] theorem State.setReport_x (b : Byte) (w : Word) : (s.setReport b w).x = s.x := rfl
@[simp] theorem State.setReport_y (b : Byte) (w : Word) : (s.setReport b w).y = s.y := rfl
@[simp] theorem State.setReport_pc (b : Byte) (w : Word) : (s.setReport b w).pc = s.pc := rfl
@[simp] theorem State.setReport_sp (b : Byte) (w : Word) : (s.setReport b w).sp = s.sp := rfl
@[simp] theorem State.setReport_flags (b : Byte) (w : Word) : (s.setReport b w).flags = s.flags := rfl
@[simp] theorem State.setReport_mem (b : Byte) (w : Word) : (s.setReport b w).mem = s.mem := rfl
@[simp] theorem State.setReport_cyclesRemaining (b : Byte) (w : Word) : (s.setReport b w).cyclesRemaining = s.cyclesRemaining := rfl
@[simp] theorem State.setReport_halted (b : Byte) (w : Word) : (s.setReport b w).halted = s.halted := rfl
@[simp] theorem State.setReport_haltReason (b : Byte) (w : Word) : (s.setReport b w).haltReason = s.haltReason := rfl
@[simp] theorem State.setReport_faultByte (b : Byte) (w : Word) : (s.setReport b w).faultByte = some b := rfl
@[simp] theorem State.setReport_faultAddr (b : Byte) (w : Word) : (s.setReport b w).faultAddr = some w := rfl
@[simp] theorem State.setReport_exitRequest (b : Byte) (w : Word) : (s.setReport b w).exitRequest = s.exitRequest := rfl
@[simp] theorem State.setReport_paused (b : Byte) (w : Word) : (s.setReport b w).paused = s.paused := rfl
@[simp] theorem State.setReport_debugEnable (b : Byte) (w : Word) : (s.setReport b w).debugEnable = s.debugEnable := rfl
@[simp] theorem State.setReport_debugInput (b : Byte) (w : Word) : (s.setReport b w).debugInput = s.debugInput := rfl
@[simp] theorem State.setReport_config (b : Byte) (w : Word) : (s.setReport b w).config = s.config := rfl

/-! `State.writeByte`. -/

@[simp] theorem State.writeByte_a (w : Word) (v : Byte) : (s.writeByte w v).a = s.a := rfl
@[simp] theorem State.writeByte_x (w : Word) (v : Byte) : (s.writeByte w v).x = s.x := rfl
@[simp] theorem State.writeByte_y (w : Word) (v : Byte) : (s.writeByte w v).y = s.y := rfl
@[simp] theorem State.writeByte_pc (w : Word) (v : Byte) : (s.writeByte w v).pc = s.pc := rfl
@[simp] theorem State.writeByte_sp (w : Word) (v : Byte) : (s.writeByte w v).sp = s.sp := rfl
@[simp] theorem State.writeByte_flags (w : Word) (v : Byte) : (s.writeByte w v).flags = s.flags := rfl
@[simp] theorem State.writeByte_mem (w : Word) (v : Byte) : (s.writeByte w v).mem = s.mem.write w v := rfl
@[simp] theorem State.writeByte_cyclesRemaining (w : Word) (v : Byte) : (s.writeByte w v).cyclesRemaining = s.cyclesRemaining := rfl
@[simp] theorem State.writeByte_halted (w : Word) (v : Byte) : (s.writeByte w v).halted = s.halted := rfl
@[simp] theorem State.writeByte_haltReason (w : Word) (v : Byte) : (s.writeByte w v).haltReason = s.haltReason := rfl
@[simp] theorem State.writeByte_faultByte (w : Word) (v : Byte) : (s.writeByte w v).faultByte = s.faultByte := rfl
@[simp] theorem State.writeByte_faultAddr (w : Word) (v : Byte) : (s.writeByte w v).faultAddr = s.faultAddr := rfl
@[simp] theorem State.writeByte_exitRequest (w : Word) (v : Byte) : (s.writeByte w v).exitRequest = s.exitRequest := rfl
@[simp] theorem State.writeByte_paused (w : Word) (v : Byte) : (s.writeByte w v).paused = s.paused := rfl
@[simp] theorem State.writeByte_debugEnable (w : Word) (v : Byte) : (s.writeByte w v).debugEnable = s.debugEnable := rfl
@[simp] theorem State.writeByte_debugInput (w : Word) (v : Byte) : (s.writeByte w v).debugInput = s.debugInput := rfl
@[simp] theorem State.writeByte_config (w : Word) (v : Byte) : (s.writeByte w v).config = s.config := rfl

/-! `State.consume`. -/

@[simp] theorem State.consume_a (n : Nat) : (s.consume n).a = s.a := rfl
@[simp] theorem State.consume_x (n : Nat) : (s.consume n).x = s.x := rfl
@[simp] theorem State.consume_y (n : Nat) : (s.consume n).y = s.y := rfl
@[simp] theorem State.consume_pc (n : Nat) : (s.consume n).pc = s.pc := rfl
@[simp] theorem State.consume_sp (n : Nat) : (s.consume n).sp = s.sp := rfl
@[simp] theorem State.consume_flags (n : Nat) : (s.consume n).flags = s.flags := rfl
@[simp] theorem State.consume_mem (n : Nat) : (s.consume n).mem = s.mem := rfl
@[simp] theorem State.consume_cyclesRemaining (n : Nat) : (s.consume n).cyclesRemaining = s.cyclesRemaining - (n : Int) := rfl
@[simp] theorem State.consume_halted (n : Nat) : (s.consume n).halted = s.halted := rfl
@[simp] theorem State.consume_haltReason (n : Nat) : (s.consume n).haltReason = s.haltReason := rfl
@[simp] theorem State.consume_faultByte (n : Nat) : (s.consume n).faultByte = s.faultByte := rfl
@[simp] theorem State.consume_faultAddr (n : Nat) : (s.consume n).faultAddr = s.faultAddr := rfl
@[simp] theorem State.consume_exitRequest (n : Nat) : (s.consume n).exitRequest = s.exitRequest := rfl
@[simp] theorem State.consume_paused (n : Nat) : (s.consume n).paused = s.paused := rfl
@[simp] theorem State.consume_debugEnable (n : Nat) : (s.consume n).debugEnable = s.debugEnable := rfl
@[simp] theorem State.consume_debugInput (n : Nat) : (s.consume n).debugInput = s.debugInput := rfl
@[simp] theorem State.consume_config (n : Nat) : (s.consume n).config = s.config := rfl

/-! `State.fetchOpcode`. -/

@[simp] theorem State.fetchOpcode_a : s.fetchOpcode.a = s.a := rfl
@[simp] theorem State.fetchOpcode_x : s.fetchOpcode.x = s.x := rfl
@[simp] theorem State.fetchOpcode_y : s.fetchOpcode.y = s.y := rfl
@[simp] theorem State.fetchOpcode_pc : s.fetchOpcode.pc = s.pc + 1#16 := rfl
@[simp] theorem State.fetchOpcode_sp : s.fetchOpcode.sp = s.sp := rfl
@[simp] theorem State.fetchOpcode_flags : s.fetchOpcode.flags = s.flags := rfl
@[simp] theorem State.fetchOpcode_mem : s.fetchOpcode.mem = s.mem := rfl
@[simp] theorem State.fetchOpcode_cyclesRemaining : s.fetchOpcode.cyclesRemaining = s.cyclesRemaining := rfl
@[simp] theorem State.fetchOpcode_halted : s.fetchOpcode.halted = s.halted := rfl
@[simp] theorem State.fetchOpcode_haltReason : s.fetchOpcode.haltReason = s.haltReason := rfl
@[simp] theorem State.fetchOpcode_faultByte : s.fetchOpcode.faultByte = s.faultByte := rfl
@[simp] theorem State.fetchOpcode_faultAddr : s.fetchOpcode.faultAddr = s.faultAddr := rfl
@[simp] theorem State.fetchOpcode_exitRequest : s.fetchOpcode.exitRequest = s.exitRequest := rfl
@[simp] theorem State.fetchOpcode_paused : s.fetchOpcode.paused = s.paused := rfl
@[simp] theorem State.fetchOpcode_debugEnable : s.fetchOpcode.debugEnable = s.debugEnable := rfl
@[simp] theorem State.fetchOpcode_debugInput : s.fetchOpcode.debugInput = s.debugInput := rfl
@[simp] theorem State.fetchOpcode_config : s.fetchOpcode.config = s.config := rfl

/-! `State.fetchOperands`. -/

@[simp] theorem State.fetchOperands_a (n : Nat) : (s.fetchOperands n).a = s.a := rfl
@[simp] theorem State.fetchOperands_x (n : Nat) : (s.fetchOperands n).x = s.x := rfl
@[simp] theorem State.fetchOperands_y (n : Nat) : (s.fetchOperands n).y = s.y := rfl
@[simp] theorem State.fetchOperands_pc (n : Nat) : (s.fetchOperands n).pc = s.pc + BitVec.ofNat 16 n := rfl
@[simp] theorem State.fetchOperands_sp (n : Nat) : (s.fetchOperands n).sp = s.sp := rfl
@[simp] theorem State.fetchOperands_flags (n : Nat) : (s.fetchOperands n).flags = s.flags := rfl
@[simp] theorem State.fetchOperands_mem (n : Nat) : (s.fetchOperands n).mem = s.mem := rfl
@[simp] theorem State.fetchOperands_cyclesRemaining (n : Nat) : (s.fetchOperands n).cyclesRemaining = s.cyclesRemaining - (n : Int) := rfl
@[simp] theorem State.fetchOperands_halted (n : Nat) : (s.fetchOperands n).halted = s.halted := rfl
@[simp] theorem State.fetchOperands_haltReason (n : Nat) : (s.fetchOperands n).haltReason = s.haltReason := rfl
@[simp] theorem State.fetchOperands_faultByte (n : Nat) : (s.fetchOperands n).faultByte = s.faultByte := rfl
@[simp] theorem State.fetchOperands_faultAddr (n : Nat) : (s.fetchOperands n).faultAddr = s.faultAddr := rfl
@[simp] theorem State.fetchOperands_exitRequest (n : Nat) : (s.fetchOperands n).exitRequest = s.exitRequest := rfl
@[simp] theorem State.fetchOperands_paused (n : Nat) : (s.fetchOperands n).paused = s.paused := rfl
@[simp] theorem State.fetchOperands_debugEnable (n : Nat) : (s.fetchOperands n).debugEnable = s.debugEnable := rfl
@[simp] theorem State.fetchOperands_debugInput (n : Nat) : (s.fetchOperands n).debugInput = s.debugInput := rfl
@[simp] theorem State.fetchOperands_config (n : Nat) : (s.fetchOperands n).config = s.config := rfl

/-! `State.setZN`. -/

@[simp] theorem State.setZN_a (v : Byte) : (s.setZN v).a = s.a := rfl
@[simp] theorem State.setZN_x (v : Byte) : (s.setZN v).x = s.x := rfl
@[simp] theorem State.setZN_y (v : Byte) : (s.setZN v).y = s.y := rfl
@[simp] theorem State.setZN_pc (v : Byte) : (s.setZN v).pc = s.pc := rfl
@[simp] theorem State.setZN_sp (v : Byte) : (s.setZN v).sp = s.sp := rfl
@[simp] theorem State.setZN_flags (v : Byte) : (s.setZN v).flags = s.flags.setZN s.config.loadIncFlags v := rfl
@[simp] theorem State.setZN_mem (v : Byte) : (s.setZN v).mem = s.mem := rfl
@[simp] theorem State.setZN_cyclesRemaining (v : Byte) : (s.setZN v).cyclesRemaining = s.cyclesRemaining := rfl
@[simp] theorem State.setZN_halted (v : Byte) : (s.setZN v).halted = s.halted := rfl
@[simp] theorem State.setZN_haltReason (v : Byte) : (s.setZN v).haltReason = s.haltReason := rfl
@[simp] theorem State.setZN_faultByte (v : Byte) : (s.setZN v).faultByte = s.faultByte := rfl
@[simp] theorem State.setZN_faultAddr (v : Byte) : (s.setZN v).faultAddr = s.faultAddr := rfl
@[simp] theorem State.setZN_exitRequest (v : Byte) : (s.setZN v).exitRequest = s.exitRequest := rfl
@[simp] theorem State.setZN_paused (v : Byte) : (s.setZN v).paused = s.paused := rfl
@[simp] theorem State.setZN_debugEnable (v : Byte) : (s.setZN v).debugEnable = s.debugEnable := rfl
@[simp] theorem State.setZN_debugInput (v : Byte) : (s.setZN v).debugInput = s.debugInput := rfl
@[simp] theorem State.setZN_config (v : Byte) : (s.setZN v).config = s.config := rfl

/-! `State.setReg` and `State.reg`. -/

@[simp] theorem State.setReg_a_a (v : Byte) : (s.setReg .a v).a = v := rfl
@[simp] theorem State.setReg_x_a (v : Byte) : (s.setReg .x v).a = s.a := rfl
@[simp] theorem State.setReg_y_a (v : Byte) : (s.setReg .y v).a = s.a := rfl
@[simp] theorem State.setReg_a_x (v : Byte) : (s.setReg .a v).x = s.x := rfl
@[simp] theorem State.setReg_x_x (v : Byte) : (s.setReg .x v).x = v := rfl
@[simp] theorem State.setReg_y_x (v : Byte) : (s.setReg .y v).x = s.x := rfl
@[simp] theorem State.setReg_a_y (v : Byte) : (s.setReg .a v).y = s.y := rfl
@[simp] theorem State.setReg_x_y (v : Byte) : (s.setReg .x v).y = s.y := rfl
@[simp] theorem State.setReg_y_y (v : Byte) : (s.setReg .y v).y = v := rfl
@[simp] theorem State.setReg_pc (r : Reg) (v : Byte) : (s.setReg r v).pc = s.pc := by cases r <;> rfl
@[simp] theorem State.setReg_sp (r : Reg) (v : Byte) : (s.setReg r v).sp = s.sp := by cases r <;> rfl
@[simp] theorem State.setReg_flags (r : Reg) (v : Byte) : (s.setReg r v).flags = s.flags := by cases r <;> rfl
@[simp] theorem State.setReg_mem (r : Reg) (v : Byte) : (s.setReg r v).mem = s.mem := by cases r <;> rfl
@[simp] theorem State.setReg_cyclesRemaining (r : Reg) (v : Byte) : (s.setReg r v).cyclesRemaining = s.cyclesRemaining := by cases r <;> rfl
@[simp] theorem State.setReg_halted (r : Reg) (v : Byte) : (s.setReg r v).halted = s.halted := by cases r <;> rfl
@[simp] theorem State.setReg_haltReason (r : Reg) (v : Byte) : (s.setReg r v).haltReason = s.haltReason := by cases r <;> rfl
@[simp] theorem State.setReg_faultByte (r : Reg) (v : Byte) : (s.setReg r v).faultByte = s.faultByte := by cases r <;> rfl
@[simp] theorem State.setReg_faultAddr (r : Reg) (v : Byte) : (s.setReg r v).faultAddr = s.faultAddr := by cases r <;> rfl
@[simp] theorem State.setReg_exitRequest (r : Reg) (v : Byte) : (s.setReg r v).exitRequest = s.exitRequest := by cases r <;> rfl
@[simp] theorem State.setReg_paused (r : Reg) (v : Byte) : (s.setReg r v).paused = s.paused := by cases r <;> rfl
@[simp] theorem State.setReg_debugEnable (r : Reg) (v : Byte) : (s.setReg r v).debugEnable = s.debugEnable := by cases r <;> rfl
@[simp] theorem State.setReg_debugInput (r : Reg) (v : Byte) : (s.setReg r v).debugInput = s.debugInput := by cases r <;> rfl
@[simp] theorem State.setReg_config (r : Reg) (v : Byte) : (s.setReg r v).config = s.config := by cases r <;> rfl
@[simp] theorem State.reg_a : s.reg .a = s.a := rfl
@[simp] theorem State.reg_x : s.reg .x = s.x := rfl
@[simp] theorem State.reg_y : s.reg .y = s.y := rfl

/-- A general register reads as it was written, and writing one leaves the other two (R20: no alias). -/
theorem State.reg_setReg (r q : Reg) (v : Byte) : (s.setReg r v).reg q = if q = r then v else s.reg q := by
  cases r <;> cases q <;> rfl

end Sys2Proof.Machine
end

