-- ==== Sys2Proof/Laws/Ops.lean ====
section
/-! SUPPORT. For each shared operation one lemma that says everything it does; later proofs cite these. -/

namespace Sys2Proof.Machine

variable (s : State)

/-- Everything `push_byte` does (R181). -/
theorem State.pushByte_eq (v : Byte) : s.pushByte v =
    { s with mem := s.mem.write (stackCell s.sp) v, sp := s.sp - 1#8, cyclesRemaining := s.cyclesRemaining - 1 } := rfl

/-- Everything `pop_byte` does (R182). -/
theorem State.popByte_eq : s.popByte =
    (s.mem.read (stackCell (s.sp + 1#8)), { s with sp := s.sp + 1#8, cyclesRemaining := s.cyclesRemaining - 1 }) := rfl

/-- Everything `push_word` does (R184). -/
theorem State.pushWord_eq (w : Word) : s.pushWord w =
    { s with
      mem := (s.mem.write (stackCell s.sp) (lowByte w)).write (stackCell (s.sp - 1#8)) (highByte w)
      sp := s.sp - 1#8 - 1#8
      cyclesRemaining := s.cyclesRemaining - 1 - 1 } := by
  simp only [State.pushWord, State.pushByte_eq]

/-- Everything `pop_word` does (R185). -/
theorem State.popWord_eq : s.popWord =
    (joinBytes (s.mem.read (stackCell (s.sp + 1#8))) (s.mem.read (stackCell (s.sp + 1#8 + 1#8))),
      { s with sp := s.sp + 1#8 + 1#8, cyclesRemaining := s.cyclesRemaining - 1 - 1 }) := rfl

/-- Everything raising UnrecognizedOpcode does (R212). -/
theorem raiseUnrecognizedOpcode_eq (byte : Byte) (addr : Word) : raiseUnrecognizedOpcode byte addr s =
    { s with faultByte := some byte, faultAddr := some addr, halted := true, haltReason := .unrecognizedOpcode } := rfl

/-- The stack cells of different pointers differ: the stack is a ring of 256 bytes (R183). -/
theorem stackCell_inj {p q : Byte} (h : stackCell p = stackCell q) : p = q := by
  apply BitVec.eq_of_toNat_eq
  have h' := congrArg BitVec.toNat h
  have hp := p.isLt
  have hq := q.isLt
  simp [stackCell, stackPage, zext16, BitVec.toNat_add, BitVec.toNat_setWidth] at h'
  omega

theorem joinBytes_toNat (hi lo : Byte) : (joinBytes hi lo).toNat = hi.toNat * 256 + lo.toNat := by
  have h : (joinBytes hi lo).toNat = hi.toNat <<< 8 ||| lo.toNat := BitVec.toNat_append hi lo
  rw [h, Nat.shiftLeft_eq, Nat.mul_comm, ← Nat.two_pow_add_eq_or_of_lt lo.isLt]

theorem lowByte_toNat (w : Word) : (lowByte w).toNat = w.toNat % 256 := by
  simp [lowByte, BitVec.extractLsb'_toNat]

theorem highByte_toNat (w : Word) : (highByte w).toNat = w.toNat / 256 := by
  have := w.isLt
  simp [highByte, BitVec.extractLsb'_toNat, Nat.shiftRight_eq_div_pow]
  omega

/-- A word is made of its two bytes (R8). -/
@[simp] theorem joinBytes_high_low (w : Word) : joinBytes (highByte w) (lowByte w) = w := by
  apply BitVec.eq_of_toNat_eq
  rw [joinBytes_toNat, highByte_toNat, lowByte_toNat]
  omega

@[simp] theorem lowByte_joinBytes (hi lo : Byte) : lowByte (joinBytes hi lo) = lo := by
  apply BitVec.eq_of_toNat_eq
  have := lo.isLt
  rw [lowByte_toNat, joinBytes_toNat]
  omega

@[simp] theorem highByte_joinBytes (hi lo : Byte) : highByte (joinBytes hi lo) = hi := by
  apply BitVec.eq_of_toNat_eq
  have := lo.isLt
  rw [highByte_toNat, joinBytes_toNat]
  omega

/-- What resolving a mode leaves: `PC` past the operand bytes, the countdown lower, nothing else (R100). -/
theorem resolve_eq (m : MemOperand) (acc : Access) : resolve m acc s = (m.ea s,
    { s with
      pc := s.pc + BitVec.ofNat 16 m.operandBytes
      cyclesRemaining := s.cyclesRemaining - (m.operandBytes : Int) - (m.extraEvents acc : Int) }) := rfl

/-- The value an operand stands for (R100, R102). -/
def Operand.value (o : Operand) (s : State) : Byte :=
  match o with
  | .imm v => v
  | .mem m => s.mem.read (m.ea s)

/-- The operand bytes of an operand (R113). -/
def Operand.operandBytes : Operand → Nat
  | .imm _ => 1
  | .mem m => m.operandBytes

/-- The events reading an operand takes (R271). -/
def Operand.events : Operand → Nat
  | .imm _ => 1
  | .mem m => m.operandBytes + m.extraEvents .read + 1

/-- Everything reading an operand does. -/
theorem readOperand_eq (o : Operand) : readOperand o s = (o.value s,
    { s with
      pc := s.pc + BitVec.ofNat 16 o.operandBytes
      cyclesRemaining := s.cyclesRemaining - (o.events : Int) }) := by
  cases o with
  | imm v => rfl
  | mem m =>
    simp only [readOperand, resolve, Operand.value, Operand.operandBytes, Operand.events, State.readByte,
      State.consume, State.fetchOperands, State.setPC, State.setCycles, Prod.mk.injEq, true_and]
    congr 1
    omega

/-- Everything a load does (R120). -/
theorem loadRegister_eq (r : Reg) (o : Operand) : loadRegister r o s =
    .next ((({ s with
      pc := s.pc + BitVec.ofNat 16 o.operandBytes
      cyclesRemaining := s.cyclesRemaining - (o.events : Int) } : State).setReg r (o.value s)).setZN (o.value s)) := by
  simp only [loadRegister, readOperand_eq]

/-- Everything a store does (R130). -/
theorem storeRegister_eq (r : Reg) (m : MemOperand) : storeRegister r m s =
    .next { s with
      pc := s.pc + BitVec.ofNat 16 m.operandBytes
      mem := s.mem.write (m.ea s) (s.reg r)
      cyclesRemaining := s.cyclesRemaining - (m.operandBytes : Int) - (m.extraEvents .write : Int) - 1 } := by
  cases r <;> rfl

/-- Everything an increment of memory does (R161). -/
theorem incrementMemory_eq (m : MemOperand) : incrementMemory m s =
    .next { s with
      pc := s.pc + BitVec.ofNat 16 m.operandBytes
      mem := s.mem.write (m.ea s) (s.mem.read (m.ea s) + 1#8)
      flags := s.flags.setZN s.config.loadIncFlags (s.mem.read (m.ea s) + 1#8)
      cyclesRemaining := s.cyclesRemaining - (m.operandBytes : Int) - (m.extraEvents .modify : Int) - 3 } := rfl

/-- Everything an add does (R145). -/
theorem addWithCarry_eq (o : Operand) : addWithCarry o s =
    .next (({ s with
      pc := s.pc + BitVec.ofNat 16 o.operandBytes
      cyclesRemaining := s.cyclesRemaining - (o.events : Int) } : State).addOperand (o.value s)) := by
  simp only [addWithCarry, readOperand_eq]

/-- Everything a subtraction does (R147). -/
theorem subtractWithCarry_eq (o : Operand) : subtractWithCarry o s =
    .next (({ s with
      pc := s.pc + BitVec.ofNat 16 o.operandBytes
      cyclesRemaining := s.cyclesRemaining - (o.events : Int) } : State).subOperand (o.value s)) := by
  simp only [subtractWithCarry, readOperand_eq]

/-- A pause and the gate's release of it leave the fetched instruction as it was: `PC - 1` is still the opcode's address
(R32). -/
theorem fetchOpcode_decodeFetched : s.fetchOpcode.decodeFetched =
    decodeBytesIn s.config.optab (s.mem.read s.pc) (s.mem.read (s.pc + 1#16)) (s.mem.read (s.pc + 1#16 + 1#16)) := by
  have h : s.pc + 1#16 - 1#16 = s.pc := by bv_omega
  simp [State.decodeFetched, State.readByte, h]

end Sys2Proof.Machine
end

