-- ==== Sys2Proof/Laws/Decode.lean ====
section
/-! SUPPORT. What the table lookups, the decoder and the encoder can answer; later proofs cite these. -/

namespace Sys2Proof

/-- What a looked-up row is (R72). -/
theorem lookupOpcode_eq_some {t : OpTable} {b : Byte} {r : OpRow} (h : lookupOpcode t b = some r) :
    r ∈ t ∧ r.byte = b ∧ r.wellFormed = true := by
  have hp := List.find?_some h
  simp only [Bool.and_eq_true, beq_iff_eq] at hp
  exact ⟨List.mem_of_find?_eq_some h, hp⟩

/-- A byte is not found exactly when no row with a handler has it (R76). -/
theorem lookupOpcode_eq_none {t : OpTable} {b : Byte} :
    lookupOpcode t b = none ↔ ∀ r ∈ t, r.wellFormed = true → r.byte ≠ b := by
  simp only [lookupOpcode, List.find?_eq_none, Bool.and_eq_true, beq_iff_eq, not_and]
  exact forall₂_congr fun r _ => ⟨fun h hw hb => h hb hw, fun h hb hw => h hw hb⟩

/-- Where no byte has two rows, each row is the one its byte finds (R72). -/
theorem lookupOpcode_of_mem {t : OpTable} {r : OpRow} (hd : (t.map OpRow.byte).Nodup) (hm : r ∈ t)
    (hw : r.wellFormed = true) : lookupOpcode t r.byte = some r := by
  cases h : lookupOpcode t r.byte with
  | none => exact absurd rfl (lookupOpcode_eq_none.1 h r hm hw)
  | some q =>
    obtain ⟨hq, hb, -⟩ := lookupOpcode_eq_some h
    rw [List.inj_on_of_nodup_map hd hq hm hb]

/-- A well-formed table: every row has a handler and no byte has two rows. -/
theorem OpTable.wellFormed_iff {t : OpTable} :
    t.wellFormed = true ↔ (∀ r ∈ t, r.wellFormed = true) ∧ (t.map OpRow.byte).Nodup := by
  simp [OpTable.wellFormed]

/-- What a row with a handler holds. -/
theorem OpRow.wellFormed_parts {r : OpRow} (h : r.wellFormed = true) :
    r.op.admits r.mode = true ∧ r.len = 1 + r.mode.operandBytes ∧ (r.cyc = none ↔ r.op = .brk) := by
  obtain ⟨byte, op, mode, len, cyc⟩ := r
  simp only [OpRow.wellFormed, Bool.and_eq_true, beq_iff_eq] at h
  refine ⟨h.1.1, h.1.2, ?_⟩
  cases cyc with
  | none => simpa using h.2
  | some n => simpa using (by simpa using h.2 : op ≠ .brk ∧ 1 ≤ n).1

/-- The instruction of an operation and a mode: its operation, mode and operand bytes (R71, R73). -/
theorem Instr.ofParts_eq_some {op : Op} {mode : Mode} {b1 b2 : Byte} {i : Instr}
    (h : Instr.ofParts op mode b1 b2 = some i) :
    i.op = op ∧ i.mode = mode ∧ i.operandFields = [b1, b2].take mode.operandBytes := by
  cases op <;> cases mode <;> first | (cases h; done) | (injection h with h; subst h; simp [Instr.op, Instr.mode,
    Instr.operandFields, Mode.operandBytes])

/-- A mode the operation's rule lists makes an instruction of any two bytes. -/
theorem Instr.ofParts_of_admits {op : Op} {mode : Mode} (h : op.admits mode = true) (b1 b2 : Byte) :
    ∃ i, Instr.ofParts op mode b1 b2 = some i := by
  cases op <;> cases mode <;> first | (cases h; done) | exact ⟨_, rfl⟩

/-- An instruction is made again of its own operation, mode and operand bytes, whatever follows them. -/
theorem Instr.ofParts_operandFields (i : Instr) (rest : List Byte) :
    Instr.ofParts i.op i.mode ((i.operandFields ++ rest).getD 0 0#8) ((i.operandFields ++ rest).getD 1 0#8) = some i := by
  cases i <;> simp [Instr.op, Instr.mode, Instr.operandFields, Instr.ofParts]

/-- The operand bytes are as many as the mode has (R71). -/
theorem Instr.operandFields_length (i : Instr) : i.operandFields.length = i.mode.operandBytes := by
  cases i <;> rfl

/-- An instruction's operation admits its mode. -/
theorem Instr.wellFormed_true (i : Instr) : i.wellFormed = true := by
  cases i <;> rfl

/-- What the three-byte decoder answers: the instruction of the row found, or the rejection where none is (R76). -/
theorem decodeBytesIn_cases (t : OpTable) (b0 b1 b2 : Byte) :
    (∃ r i, lookupOpcode t b0 = some r ∧ Instr.ofParts r.op r.mode b1 b2 = some i ∧
      decodeBytesIn t b0 b1 b2 = .instr i) ∨
    (lookupOpcode t b0 = none ∧ decodeBytesIn t b0 b1 b2 = .unrecognized b0) := by
  cases h : lookupOpcode t b0 with
  | none => exact .inr ⟨rfl, by simp [decodeBytesIn, h]⟩
  | some r =>
    obtain ⟨i, hi⟩ := Instr.ofParts_of_admits (OpRow.wellFormed_parts (lookupOpcode_eq_some h).2.2).1 b1 b2
    exact .inl ⟨r, i, rfl, hi, by simp [decodeBytesIn, h, hi]⟩

/-- What the row an instruction is encoded by is. -/
theorem rowOf_eq_some {t : OpTable} {i : Instr} {r : OpRow} (h : rowOf t i = some r) :
    r ∈ t ∧ r.op = i.op ∧ r.mode = i.mode ∧ r.wellFormed = true := by
  have hp := List.find?_some h
  simp only [Bool.and_eq_true, beq_iff_eq] at hp
  exact ⟨List.mem_of_find?_eq_some h, hp.1.1, hp.1.2, hp.2⟩

end Sys2Proof
end

