-- ==== Sys2Proof/Laws/PerInstr.lean ====
section
/-! SUPPORT. Statements about every instruction as syntax, one lemma per constructor. -/

/-- The encoding by the default table has as many bytes as the instruction's mode asks for (R71), its row gives that
length (R74, R77), and the operation admits the mode. -/
def Sys2Proof.Laws.EncodedLength.Statement (i : Sys2Proof.Instr) : Prop :=
  (Sys2Proof.encode i).length = i.length ∧
    (Sys2Proof.rowOf Sys2Proof.defaultOptab i).map Sys2Proof.OpRow.len = some i.length ∧ i.wellFormed = true

theorem Sys2Proof.Laws.EncodedLength.ldaImm (value : Sys2Proof.Byte) : Sys2Proof.Laws.EncodedLength.Statement (.ldaImm value) := ⟨rfl, rfl, rfl⟩
theorem Sys2Proof.Laws.EncodedLength.ldaZp (zp : Sys2Proof.Byte) : Sys2Proof.Laws.EncodedLength.Statement (.ldaZp zp) := ⟨rfl, rfl, rfl⟩
theorem Sys2Proof.Laws.EncodedLength.ldaZpx (zp : Sys2Proof.Byte) : Sys2Proof.Laws.EncodedLength.Statement (.ldaZpx zp) := ⟨rfl, rfl, rfl⟩
theorem Sys2Proof.Laws.EncodedLength.ldaAbs (addr : Sys2Proof.Word) : Sys2Proof.Laws.EncodedLength.Statement (.ldaAbs addr) := ⟨rfl, rfl, rfl⟩
theorem Sys2Proof.Laws.EncodedLength.ldaAbx (addr : Sys2Proof.Word) : Sys2Proof.Laws.EncodedLength.Statement (.ldaAbx addr) := ⟨rfl, rfl, rfl⟩
theorem Sys2Proof.Laws.EncodedLength.ldaAby (addr : Sys2Proof.Word) : Sys2Proof.Laws.EncodedLength.Statement (.ldaAby addr) := ⟨rfl, rfl, rfl⟩
theorem Sys2Proof.Laws.EncodedLength.ldaIzx (zp : Sys2Proof.Byte) : Sys2Proof.Laws.EncodedLength.Statement (.ldaIzx zp) := ⟨rfl, rfl, rfl⟩
theorem Sys2Proof.Laws.EncodedLength.ldaIzy (zp : Sys2Proof.Byte) : Sys2Proof.Laws.EncodedLength.Statement (.ldaIzy zp) := ⟨rfl, rfl, rfl⟩
theorem Sys2Proof.Laws.EncodedLength.ldxImm (value : Sys2Proof.Byte) : Sys2Proof.Laws.EncodedLength.Statement (.ldxImm value) := ⟨rfl, rfl, rfl⟩
theorem Sys2Proof.Laws.EncodedLength.ldxZp (zp : Sys2Proof.Byte) : Sys2Proof.Laws.EncodedLength.Statement (.ldxZp zp) := ⟨rfl, rfl, rfl⟩
theorem Sys2Proof.Laws.EncodedLength.ldxZpy (zp : Sys2Proof.Byte) : Sys2Proof.Laws.EncodedLength.Statement (.ldxZpy zp) := ⟨rfl, rfl, rfl⟩
theorem Sys2Proof.Laws.EncodedLength.ldxAbs (addr : Sys2Proof.Word) : Sys2Proof.Laws.EncodedLength.Statement (.ldxAbs addr) := ⟨rfl, rfl, rfl⟩
theorem Sys2Proof.Laws.EncodedLength.ldxAby (addr : Sys2Proof.Word) : Sys2Proof.Laws.EncodedLength.Statement (.ldxAby addr) := ⟨rfl, rfl, rfl⟩
theorem Sys2Proof.Laws.EncodedLength.ldyImm (value : Sys2Proof.Byte) : Sys2Proof.Laws.EncodedLength.Statement (.ldyImm value) := ⟨rfl, rfl, rfl⟩
theorem Sys2Proof.Laws.EncodedLength.ldyZp (zp : Sys2Proof.Byte) : Sys2Proof.Laws.EncodedLength.Statement (.ldyZp zp) := ⟨rfl, rfl, rfl⟩
theorem Sys2Proof.Laws.EncodedLength.ldyZpx (zp : Sys2Proof.Byte) : Sys2Proof.Laws.EncodedLength.Statement (.ldyZpx zp) := ⟨rfl, rfl, rfl⟩
theorem Sys2Proof.Laws.EncodedLength.ldyAbs (addr : Sys2Proof.Word) : Sys2Proof.Laws.EncodedLength.Statement (.ldyAbs addr) := ⟨rfl, rfl, rfl⟩
theorem Sys2Proof.Laws.EncodedLength.ldyAbx (addr : Sys2Proof.Word) : Sys2Proof.Laws.EncodedLength.Statement (.ldyAbx addr) := ⟨rfl, rfl, rfl⟩
theorem Sys2Proof.Laws.EncodedLength.staZp (zp : Sys2Proof.Byte) : Sys2Proof.Laws.EncodedLength.Statement (.staZp zp) := ⟨rfl, rfl, rfl⟩
theorem Sys2Proof.Laws.EncodedLength.staZpx (zp : Sys2Proof.Byte) : Sys2Proof.Laws.EncodedLength.Statement (.staZpx zp) := ⟨rfl, rfl, rfl⟩
theorem Sys2Proof.Laws.EncodedLength.staAbs (addr : Sys2Proof.Word) : Sys2Proof.Laws.EncodedLength.Statement (.staAbs addr) := ⟨rfl, rfl, rfl⟩
theorem Sys2Proof.Laws.EncodedLength.staAbx (addr : Sys2Proof.Word) : Sys2Proof.Laws.EncodedLength.Statement (.staAbx addr) := ⟨rfl, rfl, rfl⟩
theorem Sys2Proof.Laws.EncodedLength.staAby (addr : Sys2Proof.Word) : Sys2Proof.Laws.EncodedLength.Statement (.staAby addr) := ⟨rfl, rfl, rfl⟩
theorem Sys2Proof.Laws.EncodedLength.staIzx (zp : Sys2Proof.Byte) : Sys2Proof.Laws.EncodedLength.Statement (.staIzx zp) := ⟨rfl, rfl, rfl⟩
theorem Sys2Proof.Laws.EncodedLength.staIzy (zp : Sys2Proof.Byte) : Sys2Proof.Laws.EncodedLength.Statement (.staIzy zp) := ⟨rfl, rfl, rfl⟩
theorem Sys2Proof.Laws.EncodedLength.stxZp (zp : Sys2Proof.Byte) : Sys2Proof.Laws.EncodedLength.Statement (.stxZp zp) := ⟨rfl, rfl, rfl⟩
theorem Sys2Proof.Laws.EncodedLength.stxZpy (zp : Sys2Proof.Byte) : Sys2Proof.Laws.EncodedLength.Statement (.stxZpy zp) := ⟨rfl, rfl, rfl⟩
theorem Sys2Proof.Laws.EncodedLength.stxAbs (addr : Sys2Proof.Word) : Sys2Proof.Laws.EncodedLength.Statement (.stxAbs addr) := ⟨rfl, rfl, rfl⟩
theorem Sys2Proof.Laws.EncodedLength.styZp (zp : Sys2Proof.Byte) : Sys2Proof.Laws.EncodedLength.Statement (.styZp zp) := ⟨rfl, rfl, rfl⟩
theorem Sys2Proof.Laws.EncodedLength.styZpx (zp : Sys2Proof.Byte) : Sys2Proof.Laws.EncodedLength.Statement (.styZpx zp) := ⟨rfl, rfl, rfl⟩
theorem Sys2Proof.Laws.EncodedLength.styAbs (addr : Sys2Proof.Word) : Sys2Proof.Laws.EncodedLength.Statement (.styAbs addr) := ⟨rfl, rfl, rfl⟩
theorem Sys2Proof.Laws.EncodedLength.adcImm (value : Sys2Proof.Byte) : Sys2Proof.Laws.EncodedLength.Statement (.adcImm value) := ⟨rfl, rfl, rfl⟩
theorem Sys2Proof.Laws.EncodedLength.adcZp (zp : Sys2Proof.Byte) : Sys2Proof.Laws.EncodedLength.Statement (.adcZp zp) := ⟨rfl, rfl, rfl⟩
theorem Sys2Proof.Laws.EncodedLength.adcZpx (zp : Sys2Proof.Byte) : Sys2Proof.Laws.EncodedLength.Statement (.adcZpx zp) := ⟨rfl, rfl, rfl⟩
theorem Sys2Proof.Laws.EncodedLength.adcAbs (addr : Sys2Proof.Word) : Sys2Proof.Laws.EncodedLength.Statement (.adcAbs addr) := ⟨rfl, rfl, rfl⟩
theorem Sys2Proof.Laws.EncodedLength.adcAbx (addr : Sys2Proof.Word) : Sys2Proof.Laws.EncodedLength.Statement (.adcAbx addr) := ⟨rfl, rfl, rfl⟩
theorem Sys2Proof.Laws.EncodedLength.adcAby (addr : Sys2Proof.Word) : Sys2Proof.Laws.EncodedLength.Statement (.adcAby addr) := ⟨rfl, rfl, rfl⟩
theorem Sys2Proof.Laws.EncodedLength.adcIzx (zp : Sys2Proof.Byte) : Sys2Proof.Laws.EncodedLength.Statement (.adcIzx zp) := ⟨rfl, rfl, rfl⟩
theorem Sys2Proof.Laws.EncodedLength.adcIzy (zp : Sys2Proof.Byte) : Sys2Proof.Laws.EncodedLength.Statement (.adcIzy zp) := ⟨rfl, rfl, rfl⟩
theorem Sys2Proof.Laws.EncodedLength.sbcImm (value : Sys2Proof.Byte) : Sys2Proof.Laws.EncodedLength.Statement (.sbcImm value) := ⟨rfl, rfl, rfl⟩
theorem Sys2Proof.Laws.EncodedLength.sbcZp (zp : Sys2Proof.Byte) : Sys2Proof.Laws.EncodedLength.Statement (.sbcZp zp) := ⟨rfl, rfl, rfl⟩
theorem Sys2Proof.Laws.EncodedLength.sbcZpx (zp : Sys2Proof.Byte) : Sys2Proof.Laws.EncodedLength.Statement (.sbcZpx zp) := ⟨rfl, rfl, rfl⟩
theorem Sys2Proof.Laws.EncodedLength.sbcAbs (addr : Sys2Proof.Word) : Sys2Proof.Laws.EncodedLength.Statement (.sbcAbs addr) := ⟨rfl, rfl, rfl⟩
theorem Sys2Proof.Laws.EncodedLength.sbcAbx (addr : Sys2Proof.Word) : Sys2Proof.Laws.EncodedLength.Statement (.sbcAbx addr) := ⟨rfl, rfl, rfl⟩
theorem Sys2Proof.Laws.EncodedLength.sbcAby (addr : Sys2Proof.Word) : Sys2Proof.Laws.EncodedLength.Statement (.sbcAby addr) := ⟨rfl, rfl, rfl⟩
theorem Sys2Proof.Laws.EncodedLength.sbcIzx (zp : Sys2Proof.Byte) : Sys2Proof.Laws.EncodedLength.Statement (.sbcIzx zp) := ⟨rfl, rfl, rfl⟩
theorem Sys2Proof.Laws.EncodedLength.sbcIzy (zp : Sys2Proof.Byte) : Sys2Proof.Laws.EncodedLength.Statement (.sbcIzy zp) := ⟨rfl, rfl, rfl⟩
theorem Sys2Proof.Laws.EncodedLength.incZp (zp : Sys2Proof.Byte) : Sys2Proof.Laws.EncodedLength.Statement (.incZp zp) := ⟨rfl, rfl, rfl⟩
theorem Sys2Proof.Laws.EncodedLength.incZpx (zp : Sys2Proof.Byte) : Sys2Proof.Laws.EncodedLength.Statement (.incZpx zp) := ⟨rfl, rfl, rfl⟩
theorem Sys2Proof.Laws.EncodedLength.incAbs (addr : Sys2Proof.Word) : Sys2Proof.Laws.EncodedLength.Statement (.incAbs addr) := ⟨rfl, rfl, rfl⟩
theorem Sys2Proof.Laws.EncodedLength.incAbx (addr : Sys2Proof.Word) : Sys2Proof.Laws.EncodedLength.Statement (.incAbx addr) := ⟨rfl, rfl, rfl⟩
theorem Sys2Proof.Laws.EncodedLength.inx : Sys2Proof.Laws.EncodedLength.Statement .inx := ⟨rfl, rfl, rfl⟩
theorem Sys2Proof.Laws.EncodedLength.iny : Sys2Proof.Laws.EncodedLength.Statement .iny := ⟨rfl, rfl, rfl⟩
theorem Sys2Proof.Laws.EncodedLength.sec : Sys2Proof.Laws.EncodedLength.Statement .sec := ⟨rfl, rfl, rfl⟩
theorem Sys2Proof.Laws.EncodedLength.clc : Sys2Proof.Laws.EncodedLength.Statement .clc := ⟨rfl, rfl, rfl⟩
theorem Sys2Proof.Laws.EncodedLength.jsr (addr : Sys2Proof.Word) : Sys2Proof.Laws.EncodedLength.Statement (.jsr addr) := ⟨rfl, rfl, rfl⟩
theorem Sys2Proof.Laws.EncodedLength.rts : Sys2Proof.Laws.EncodedLength.Statement .rts := ⟨rfl, rfl, rfl⟩
theorem Sys2Proof.Laws.EncodedLength.brk : Sys2Proof.Laws.EncodedLength.Statement .brk := ⟨rfl, rfl, rfl⟩
end

