-- ==== Sys2Proof/Laws/Step.lean ====
section
/-! SUPPORT. What a step can be: one case lemma for `step`, one for what follows the gate, one for the pass's end. Later
proofs about steps cite these. -/

namespace Sys2Proof.Machine

/-- The seven things a step can be: a halted engine's stay, a pause without a command, an inspecting or malformed command,
a release of the pause, the exit at the loop head, the pause after a fetch, and a pass from the loop head. -/
theorem step_cases {s t : State} (h : step s = .next t) :
    (s.halted = true ∧ t = s) ∨
    (s.halted = false ∧ s.paused = true ∧ s.debugInput = [] ∧ t = s) ∨
    (s.halted = false ∧ s.paused = true ∧ ∃ c rest, s.debugInput = c :: rest ∧ c ≠ .step ∧ c ≠ .exit ∧
      t = s.setDebugInput rest) ∨
    (s.halted = false ∧ s.paused = true ∧ ∃ c rest, s.debugInput = c :: rest ∧ (c = .step ∨ c = .exit) ∧
      afterGate ((s.setDebugInput rest).obey c) = .next t) ∨
    (s.halted = false ∧ s.paused = false ∧ s.exitRequest = true ∧ s.config.exitSample = .loopHead ∧
      t = s.halt .debugExit) ∨
    (s.halted = false ∧ s.paused = false ∧ s.debugEnable = true ∧ t = s.fetchOpcode.setPaused true) ∨
    (s.halted = false ∧ s.paused = false ∧ s.debugEnable = false ∧ afterGate s.fetchOpcode = .next t) := by
  unfold step at h
  split at h
  · rename_i hh
    injection h with h
    exact .inl ⟨hh, h.symm⟩
  · rename_i hh
    have hh : s.halted = false := by simpa using hh
    split at h
    · rename_i hp
      unfold fromPause at h
      split at h
      · rename_i hin
        injection h with h
        exact .inr (.inl ⟨hh, hp, hin, h.symm⟩)
      · rename_i c rest hin
        cases c with
        | step => exact .inr (.inr (.inr (.inl ⟨hh, hp, _, rest, hin, .inl rfl, h⟩)))
        | exit => exact .inr (.inr (.inr (.inl ⟨hh, hp, _, rest, hin, .inr rfl, h⟩)))
        | help => exact .inr (.inr (.inl ⟨hh, hp, _, rest, hin, nofun, nofun, by simpa [State.obey, hp] using h.symm⟩))
        | dumpStack => exact .inr (.inr (.inl ⟨hh, hp, _, rest, hin, nofun, nofun, by simpa [State.obey, hp] using h.symm⟩))
        | dumpMemory first last =>
          exact .inr (.inr (.inl ⟨hh, hp, _, rest, hin, nofun, nofun, by simpa [State.obey, hp] using h.symm⟩))
        | malformed => exact .inr (.inr (.inl ⟨hh, hp, _, rest, hin, nofun, nofun, by simpa [State.obey, hp] using h.symm⟩))
    · rename_i hp
      have hp : s.paused = false := by simpa using hp
      unfold fromLoopHead at h
      split at h
      · rename_i hx
        have hx : s.exitRequest = true ∧ s.config.exitSample = .loopHead := by simpa using hx
        injection h with h
        exact .inr (.inr (.inr (.inr (.inl ⟨hh, hp, hx.1, hx.2, h.symm⟩))))
      · split at h
        · rename_i hd
          injection h with h
          exact .inr (.inr (.inr (.inr (.inr (.inl ⟨hh, hp, hd, h.symm⟩)))))
        · rename_i hd
          exact .inr (.inr (.inr (.inr (.inr (.inr ⟨hh, hp, by simpa using hd, h⟩)))))

/-- What follows the gate: the exit there, or the end of the pass. -/
theorem afterGate_cases {s t : State} (h : afterGate s = .next t) :
    (s.exitRequest = true ∧ s.config.exitSample = .afterGate ∧ t = s.halt .debugExit) ∨ completePass s = .next t := by
  unfold afterGate at h
  split at h
  · rename_i hx
    have hx : s.exitRequest = true ∧ s.config.exitSample = .afterGate := by simpa using hx
    injection h with h
    exact .inl ⟨hx.1, hx.2, h.symm⟩
  · exact .inr h

/-- What a handler's end can be (R95). -/
theorem endCountdown_next {o : Host.Outcome State Fault Refusal} {t : State} (h : endCountdown o = .next t) :
    ∃ u, o = .next u ∧ t = u.setCycles 0 := by
  cases o with
  | next u =>
    injection h with h
    exact ⟨u, rfl, h.symm⟩
  | fault f => cases h
  | refused r => cases h

@[simp] theorem endCountdown_of_next (u : State) : endCountdown (.next u) = .next (u.setCycles 0) := rfl

/-- The end of a pass: the execution of an instruction that has a count, of one that has none, or the UnrecognizedOpcode
halt. -/
theorem completePass_cases {s t : State} (h : completePass s = .next t) :
    (∃ i n u, s.decodeFetched = .instr i ∧ s.fetchedCycles = some n ∧
      exec i (s.setCycles ((n : Int) - 1)) = .next u ∧ t = u.setCycles 0) ∨
    (∃ i, s.decodeFetched = .instr i ∧ s.fetchedCycles = none ∧ exec i s = .next t) ∨
    (∃ b, s.decodeFetched = .unrecognized b ∧ t = raiseUnrecognizedOpcode b (s.pc - 1#16) s) := by
  unfold completePass at h
  split at h
  · rename_i i hi
    split at h
    · rename_i n hn
      obtain ⟨u, hu, ht⟩ := endCountdown_next h
      exact .inl ⟨i, n, u, hi, hn, hu, ht⟩
    · rename_i hn
      exact .inr (.inl ⟨i, hi, hn, h⟩)
  · rename_i b hb
    injection h with h
    exact .inr (.inr ⟨b, hb, h.symm⟩)

end Sys2Proof.Machine
end

