-- ==== Sys2Proof/Tests/Slice0.lean ====
section
/-! SUPPORT. The model's own tests: expected results from the tables and worked examples of the spec (95_test_vectors.md
S1 to S6 and V1 to V10, 30_encoding.md R74), and a witness for every statement that has hypotheses. -/

namespace Sys2Proof.Tests

open Sys2Proof.Machine

/-- A reset engine with bytes at 0x0200. -/
def code (bytes : List Byte) : State := { State.reset with mem := Memory.writeBytes [] 0x0200#16 bytes }

/-- A byte put in memory. -/
def put (addr : Word) (v : Byte) (s : State) : State := { s with mem := s.mem.write addr v }

/-- `C` set or cleared. -/
def withC (c : Bool) (s : State) : State := { s with flags := { s.flags with c := c } }

/-- Whether a step answers a next state. -/
def isNext : Host.Outcome State Fault Refusal → Bool
  | .next _ => true
  | .fault _ => false
  | .refused _ => false

/-- The state an outcome holds, if it is a next state, else the one given. -/
def stateOr (s : State) : Host.Outcome State Fault Refusal → State
  | .next t => t
  | .fault _ => s
  | .refused _ => s

/-- One step on. -/
def after (s : State) : State := stateOr s (step s)

theorem next_stateOr {o : Host.Outcome State Fault Refusal} (s : State) (h : isNext o = true) :
    o = .next (stateOr s o) := by
  cases o with
  | next t => rfl
  | fault r => cases h
  | refused r => cases h

/-! Ill-formed terms the checks refuse. -/

theorem test_refuses_store_immediate : Op.sta.admits .imm = false ∧ Op.stx.admits .imm = false := by decide
theorem test_refuses_ldx_indexed_by_x : Op.ldx.admits .zpx = false ∧ Op.ldx.admits .abx = false := by decide
theorem test_refuses_ldy_indexed_by_y : Op.ldy.admits .zpy = false ∧ Op.ldy.admits .aby = false := by decide
theorem test_refuses_inc_absolute_y : Op.inc.admits .aby = false ∧ Op.inx.admits .zp = false := by decide
theorem test_refuses_jsr_implied : Op.jsr.admits .imp = false ∧ Op.rts.admits .abs = false := by decide
theorem test_refuses_long_image : imageWellFormed (List.replicate 65025 0x00#8) = false := by
  simp only [imageWellFormed, List.length_replicate]
  decide
theorem test_refuses_wide_dump_bound : (DebugCommand.dumpMemory 0 65536).wellFormed = false := by decide
theorem test_refuses_wide_dump_start : (DebugCommand.dumpMemory 65536 0).wellFormed = false := by decide
theorem test_refuses_malformed_command : DebugCommand.malformed.wellFormed = false := by decide

/-! Decoding: every row's word, written out from R74; operand bytes low byte first (R73). -/

theorem test_decode_lda :
    decodeBytes 0xA9#8 0x80#8 0x34#8 = .instr (.ldaImm 0x80#8) ∧
    decodeBytes 0xA5#8 0x80#8 0x34#8 = .instr (.ldaZp 0x80#8) ∧
    decodeBytes 0xB5#8 0x80#8 0x34#8 = .instr (.ldaZpx 0x80#8) ∧
    decodeBytes 0xAD#8 0x21#8 0x02#8 = .instr (.ldaAbs 0x0221#16) ∧
    decodeBytes 0xBD#8 0x21#8 0x02#8 = .instr (.ldaAbx 0x0221#16) ∧
    decodeBytes 0xB9#8 0x21#8 0x02#8 = .instr (.ldaAby 0x0221#16) ∧
    decodeBytes 0xA1#8 0x80#8 0x34#8 = .instr (.ldaIzx 0x80#8) ∧
    decodeBytes 0xB1#8 0x80#8 0x34#8 = .instr (.ldaIzy 0x80#8) := by decide

theorem test_decode_ldx :
    decodeBytes 0xA2#8 0x80#8 0x34#8 = .instr (.ldxImm 0x80#8) ∧
    decodeBytes 0xA6#8 0x80#8 0x34#8 = .instr (.ldxZp 0x80#8) ∧
    decodeBytes 0xB6#8 0x80#8 0x34#8 = .instr (.ldxZpy 0x80#8) ∧
    decodeBytes 0xAE#8 0x21#8 0x02#8 = .instr (.ldxAbs 0x0221#16) ∧
    decodeBytes 0xBE#8 0x21#8 0x02#8 = .instr (.ldxAby 0x0221#16) := by decide

theorem test_decode_ldy :
    decodeBytes 0xA0#8 0x80#8 0x34#8 = .instr (.ldyImm 0x80#8) ∧
    decodeBytes 0xA4#8 0x80#8 0x34#8 = .instr (.ldyZp 0x80#8) ∧
    decodeBytes 0xB4#8 0x80#8 0x34#8 = .instr (.ldyZpx 0x80#8) ∧
    decodeBytes 0xAC#8 0x21#8 0x02#8 = .instr (.ldyAbs 0x0221#16) ∧
    decodeBytes 0xBC#8 0x21#8 0x02#8 = .instr (.ldyAbx 0x0221#16) := by decide

theorem test_decode_sta :
    decodeBytes 0x85#8 0x80#8 0x34#8 = .instr (.staZp 0x80#8) ∧
    decodeBytes 0x95#8 0x80#8 0x34#8 = .instr (.staZpx 0x80#8) ∧
    decodeBytes 0x8D#8 0x21#8 0x02#8 = .instr (.staAbs 0x0221#16) ∧
    decodeBytes 0x9D#8 0x21#8 0x02#8 = .instr (.staAbx 0x0221#16) ∧
    decodeBytes 0x99#8 0x21#8 0x02#8 = .instr (.staAby 0x0221#16) ∧
    decodeBytes 0x81#8 0x80#8 0x34#8 = .instr (.staIzx 0x80#8) ∧
    decodeBytes 0x91#8 0x80#8 0x34#8 = .instr (.staIzy 0x80#8) := by decide

theorem test_decode_stx :
    decodeBytes 0x86#8 0x80#8 0x34#8 = .instr (.stxZp 0x80#8) ∧
    decodeBytes 0x96#8 0x80#8 0x34#8 = .instr (.stxZpy 0x80#8) ∧
    decodeBytes 0x8E#8 0x21#8 0x02#8 = .instr (.stxAbs 0x0221#16) := by decide

theorem test_decode_sty :
    decodeBytes 0x84#8 0x80#8 0x34#8 = .instr (.styZp 0x80#8) ∧
    decodeBytes 0x94#8 0x80#8 0x34#8 = .instr (.styZpx 0x80#8) ∧
    decodeBytes 0x8C#8 0x21#8 0x02#8 = .instr (.styAbs 0x0221#16) := by decide

theorem test_decode_adc :
    decodeBytes 0x69#8 0x80#8 0x34#8 = .instr (.adcImm 0x80#8) ∧
    decodeBytes 0x65#8 0x80#8 0x34#8 = .instr (.adcZp 0x80#8) ∧
    decodeBytes 0x75#8 0x80#8 0x34#8 = .instr (.adcZpx 0x80#8) ∧
    decodeBytes 0x6D#8 0x21#8 0x02#8 = .instr (.adcAbs 0x0221#16) ∧
    decodeBytes 0x7D#8 0x21#8 0x02#8 = .instr (.adcAbx 0x0221#16) ∧
    decodeBytes 0x79#8 0x21#8 0x02#8 = .instr (.adcAby 0x0221#16) ∧
    decodeBytes 0x61#8 0x80#8 0x34#8 = .instr (.adcIzx 0x80#8) ∧
    decodeBytes 0x71#8 0x80#8 0x34#8 = .instr (.adcIzy 0x80#8) := by decide

theorem test_decode_sbc :
    decodeBytes 0xE9#8 0x80#8 0x34#8 = .instr (.sbcImm 0x80#8) ∧
    decodeBytes 0xE5#8 0x80#8 0x34#8 = .instr (.sbcZp 0x80#8) ∧
    decodeBytes 0xF5#8 0x80#8 0x34#8 = .instr (.sbcZpx 0x80#8) ∧
    decodeBytes 0xED#8 0x21#8 0x02#8 = .instr (.sbcAbs 0x0221#16) ∧
    decodeBytes 0xFD#8 0x21#8 0x02#8 = .instr (.sbcAbx 0x0221#16) ∧
    decodeBytes 0xF9#8 0x21#8 0x02#8 = .instr (.sbcAby 0x0221#16) ∧
    decodeBytes 0xE1#8 0x80#8 0x34#8 = .instr (.sbcIzx 0x80#8) ∧
    decodeBytes 0xF1#8 0x80#8 0x34#8 = .instr (.sbcIzy 0x80#8) := by decide

theorem test_decode_inc :
    decodeBytes 0xE6#8 0x80#8 0x34#8 = .instr (.incZp 0x80#8) ∧
    decodeBytes 0xF6#8 0x80#8 0x34#8 = .instr (.incZpx 0x80#8) ∧
    decodeBytes 0xEE#8 0x21#8 0x02#8 = .instr (.incAbs 0x0221#16) ∧
    decodeBytes 0xFE#8 0x21#8 0x02#8 = .instr (.incAbx 0x0221#16) := by decide

theorem test_decode_inx :
    decodeBytes 0xE8#8 0x12#8 0x34#8 = .instr .inx := by decide

theorem test_decode_iny :
    decodeBytes 0xC8#8 0x12#8 0x34#8 = .instr .iny := by decide

theorem test_decode_sec :
    decodeBytes 0x38#8 0x12#8 0x34#8 = .instr .sec := by decide

theorem test_decode_clc :
    decodeBytes 0x18#8 0x12#8 0x34#8 = .instr .clc := by decide

theorem test_decode_jsr :
    decodeBytes 0x20#8 0x21#8 0x02#8 = .instr (.jsr 0x0221#16) := by decide

theorem test_decode_rts :
    decodeBytes 0x60#8 0x12#8 0x34#8 = .instr .rts := by decide

theorem test_decode_brk :
    decodeBytes 0x00#8 0x12#8 0x34#8 = .instr .brk := by decide

theorem test_decode_rejects_nop_jmp_ff : decodeBytes 0xEA#8 0#8 0#8 = .unrecognized 0xEA#8 ∧
    decodeBytes 0x4C#8 0#8 0#8 = .unrecognized 0x4C#8 ∧ decodeBytes 0xFF#8 0#8 0#8 = .unrecognized 0xFF#8 := by decide
/-! A substituted table (R7, R74, D22): the break byte 0x02, one load row with another byte and count, no other row. -/

def otherTable : OpTable := [⟨0x02#8, .brk, .imp, 1, none⟩, ⟨0x10#8, .lda, .imm, 2, some 9⟩]

/-- The default parameters but for that table. -/
def otherConfig : Config := { defaultConfig with optab := otherTable }

theorem test_other_table_load : let t := after { code [0x10#8, 0x80#8] with config := otherConfig }
    t.a = 0x80#8 ∧ t.pc = 0x0202#16 ∧ t.cyclesRemaining = 0 := by decide
theorem test_other_table_break_byte :
    (after { code [0x02#8] with config := otherConfig }).haltReason = .breakOpcode ∧
    (after { code [0x00#8] with config := otherConfig }).faultByte = some 0x00#8 := by decide
theorem test_other_table_missing_row : let t := after { code [0xA9#8, 0x80#8] with config := otherConfig }
    t.haltReason = .unrecognizedOpcode ∧ t.faultByte = some 0xA9#8 ∧ t.a = 0x00#8 := by decide
theorem test_encode_by_other_table : encodeIn otherTable (.ldaImm 0x80#8) = some [0x10#8, 0x80#8] ∧
    encodeIn otherTable .inx = none := by decide
theorem test_refuses_row_without_handler : OpTable.wellFormed [⟨0xB6#8, .ldx, .zpx, 2, some 4⟩] = false ∧
    OpTable.wellFormed [⟨0xB6#8, .ldx, .zpy, 3, some 4⟩] = false ∧
    OpTable.wellFormed [⟨0xB6#8, .ldx, .zpy, 2, none⟩] = false ∧
    OpTable.wellFormed [⟨0x00#8, .brk, .imp, 1, some 7⟩] = false := by decide
theorem test_refuses_two_rows_for_a_byte : OpTable.wellFormed [⟨0xE8#8, .inx, .imp, 1, some 2⟩,
    ⟨0xE8#8, .iny, .imp, 1, some 2⟩] = false := by decide

theorem test_decode_truncated : decode [0xAD#8, 0x00#8] = .truncated ∧ decode [] = .truncated := by decide
theorem test_decode_table_word : decodeTableWord 24 0x0221AD = some (.ldaAbs 0x0221#16) ∧
    decodeTableWord 8 0x0221AD = some (.ldaAbs 0x0000#16) ∧ decodeTableWord 8 0xFF = none := by decide
theorem test_fetch_word_runs : (after (State.reset.withFetchWord 16 0x42A9)).a = 0x42#8 := by decide
theorem test_default_table_well_formed : defaultOptab.wellFormed = true := by decide +kernel

/-! Addressing (V1). -/

theorem test_ea_zpx_no_wrap : (MemOperand.zpx 0x80#8).ea { State.reset with x := 0xFF#8 } = 0x017F#16 := by decide
theorem test_ea_zpy : (MemOperand.zpy 0xF0#8).ea { State.reset with y := 0x20#8 } = 0x0110#16 := by decide
theorem test_ea_abx_wraps : (MemOperand.abx 0xFFFF#16).ea { State.reset with x := 0x02#8 } = 0x0001#16 := by decide
theorem test_ea_aby : (MemOperand.aby 0x0001#16).ea { State.reset with y := 0xFF#8 } = 0x0100#16 := by decide

/-- A pointer at 0xFF: low byte 0x34 there, 0x12 at 0x0000, 0x99 at 0x0100 (V1). -/
def pointerAtEdge : State := put 0x00FF#16 0x34#8 (put 0x0000#16 0x12#8 (put 0x0100#16 0x99#8 State.reset))

theorem test_ea_izx_edge : (MemOperand.izx 0xFF#8).ea pointerAtEdge = 0x1234#16 := by decide
theorem test_ea_izx_edge_plain16 : (MemOperand.izx 0xFF#8).ea
    { pointerAtEdge with config := { defaultConfig with zpPtrWrap := .plain16 } } = 0x9934#16 := by decide
theorem test_ea_izx_sum_wraps : (MemOperand.izx 0xF0#8).ea
    (put 0x0010#16 0x78#8 (put 0x0011#16 0x56#8 { State.reset with x := 0x20#8 })) = 0x5678#16 := by decide
theorem test_ea_izy_wraps : (MemOperand.izy 0x40#8).ea
    (put 0x0040#16 0xF0#8 (put 0x0041#16 0xFF#8 { State.reset with y := 0x20#8 })) = 0x0010#16 := by decide

/-! Loads (V2). -/

theorem test_lda_imm_zero : let t := after { code [0xA9#8, 0x00#8] with a := 0x55#8 }
    t.a = 0x00#8 ∧ t.flags.z = true ∧ t.flags.n = false ∧ t.pc = 0x0202#16 ∧ t.cyclesRemaining = 0 := by decide
theorem test_lda_zpx_stack_page : let t := after (put 0x017F#16 0xAB#8 (put 0x007F#16 0x11#8
    { code [0xB5#8, 0x80#8] with x := 0xFF#8 }))
    t.a = 0xAB#8 ∧ t.flags.n = true := by decide
theorem test_lda_abs : let t := after (put 0x0300#16 0x01#8 (code [0xAD#8, 0x00#8, 0x03#8]))
    t.a = 0x01#8 ∧ t.pc = 0x0203#16 := by decide
theorem test_lda_izy : (after (put 0x0310#16 0x66#8 (put 0x0040#16 0xF0#8 (put 0x0041#16 0x02#8
    { code [0xB1#8, 0x40#8] with y := 0x20#8 })))).a = 0x66#8 := by decide
theorem test_lda_straddles_top : let t := after (put 0xFFFF#16 0xA9#8 (put 0x0000#16 0x42#8
    { State.reset with pc := 0xFFFF#16 }))
    t.a = 0x42#8 ∧ t.pc = 0x0001#16 := by decide
theorem test_ldx_imm : let t := after (code [0xA2#8, 0xFF#8])
    t.x = 0xFF#8 ∧ t.flags.n = true ∧ t.flags.z = false := by decide
theorem test_ldx_zpy : (after (put 0x0110#16 0x09#8 { code [0xB6#8, 0xF0#8] with y := 0x20#8 })).x = 0x09#8 := by decide
theorem test_ldy_imm : let t := after { code [0xA0#8, 0x00#8] with y := 0x01#8 }
    t.y = 0x00#8 ∧ t.flags.z = true := by decide
theorem test_ldy_abx : (after (put 0x0303#16 0x0A#8 { code [0xBC#8, 0x00#8, 0x03#8] with x := 0x03#8 })).y = 0x0A#8 := by
  decide

/-! Stores (V3). -/

theorem test_sta_zpx : let t := after { code [0x95#8, 0x80#8] with a := 0x5A#8, x := 0xFF#8 }
    t.mem.read 0x017F#16 = 0x5A#8 ∧ t.mem.read 0x007F#16 = 0x00#8 := by decide
theorem test_sta_own_operand : let t := after { code [0x8D#8, 0x01#8, 0x02#8] with a := 0xEA#8 }
    t.mem.read 0x0201#16 = 0xEA#8 ∧ t.pc = 0x0203#16 := by decide
theorem test_sta_izy : (after (put 0x0041#16 0x03#8 { code [0x91#8, 0x40#8] with a := 0xC3#8, y := 0x05#8 })).mem.read
    0x0305#16 = 0xC3#8 := by decide
theorem test_stx_zpy : (after { code [0x96#8, 0xF0#8] with x := 0x07#8, y := 0x20#8 }).mem.read 0x0110#16 = 0x07#8 := by
  decide
theorem test_sty_abs : (after { code [0x8C#8, 0x34#8, 0x12#8] with y := 0x99#8 }).mem.read 0x1234#16 = 0x99#8 := by decide

/-! ADC and SBC (V4, V5). -/

/-- A, then C V Z N, after an immediate ADC or SBC. -/
def arithmetic (op a m : Byte) (c : Bool) : Byte × Bool × Bool × Bool × Bool :=
  let t := after (withC c { code [op, m] with a := a })
  (t.a, t.flags.c, t.flags.v, t.flags.z, t.flags.n)

theorem test_adc_50_50 : arithmetic 0x69#8 0x50#8 0x50#8 false = (0xA0#8, true, true, false, true) := by decide
theorem test_adc_ff_ff : arithmetic 0x69#8 0xFF#8 0xFF#8 false = (0xFE#8, false, false, false, true) := by decide
theorem test_adc_3f_40_carry : arithmetic 0x69#8 0x3F#8 0x40#8 true = (0x80#8, true, true, false, true) := by decide
theorem test_adc_80_80 : arithmetic 0x69#8 0x80#8 0x80#8 false = (0x00#8, true, true, true, false) := by decide
theorem test_sbc_05_03 : arithmetic 0xE9#8 0x05#8 0x03#8 true = (0x02#8, false, false, false, false) := by decide
theorem test_sbc_00_01 : arithmetic 0xE9#8 0x00#8 0x01#8 true = (0xFF#8, true, true, false, true) := by decide
theorem test_sbc_80_01 : arithmetic 0xE9#8 0x80#8 0x01#8 true = (0x7F#8, true, false, false, false) := by decide
theorem test_sbc_ff_ff_borrow : arithmetic 0xE9#8 0xFF#8 0xFF#8 false = (0xFF#8, false, false, false, true) := by decide

/-! Increments and carry flag (V6, V7). -/

theorem test_inc_zp_wraps : let t := after (withC true (put 0x0010#16 0xFF#8 (code [0xE6#8, 0x10#8])))
    t.mem.read 0x0010#16 = 0x00#8 ∧ t.flags.z = true ∧ t.flags.n = false ∧ t.flags.c = true := by decide
theorem test_inc_abx : (after (put 0x0305#16 0x7F#8 { code [0xFE#8, 0x00#8, 0x03#8] with x := 0x05#8 })).mem.read
    0x0305#16 = 0x80#8 := by decide
theorem test_inx_sign : let t := after { code [0xE8#8] with x := 0x7F#8 }
    t.x = 0x80#8 ∧ t.flags.n = true ∧ t.pc = 0x0201#16 := by decide
theorem test_iny_wraps : let t := after { code [0xC8#8] with y := 0xFF#8 }
    t.y = 0x00#8 ∧ t.flags.z = true := by decide
theorem test_sec : (after (code [0x38#8])).flags.c = true := by decide
theorem test_clc : (after (withC true (code [0x18#8]))).flags.c = false := by decide

/-! Stack, call and return (V8). -/

theorem test_jsr : let t := after (code [0x20#8, 0x21#8, 0x02#8])
    t.mem.read 0x01FF#16 = 0x03#8 ∧ t.mem.read 0x01FE#16 = 0x02#8 ∧ t.sp = 0xFD#8 ∧ t.pc = 0x0221#16 := by decide
theorem test_jsr_wraps : let t := after (put 0x0300#16 0x20#8 (put 0x0301#16 0x34#8 (put 0x0302#16 0x12#8
    { State.reset with pc := 0x0300#16, sp := 0x00#8 })))
    t.mem.read 0x0100#16 = 0x03#8 ∧ t.mem.read 0x01FF#16 = 0x03#8 ∧ t.sp = 0xFE#8 ∧ t.pc = 0x1234#16 := by decide
theorem test_rts : let t := after (put 0x01FE#16 0x12#8 (put 0x01FF#16 0x34#8 { code [0x60#8] with sp := 0xFD#8 }))
    t.pc = 0x1234#16 ∧ t.sp = 0xFF#8 ∧ t.cyclesRemaining = 0 := by decide
theorem test_rts_empty_stack : let t := after (code [0x60#8])
    t.pc = 0x0000#16 ∧ t.sp = 0x01#8 := by decide

/-! Halting (V9). -/

theorem test_brk_at_top : let t := after { State.reset with pc := 0xFFFF#16 }
    t.halted = true ∧ t.haltReason = .breakOpcode ∧ t.pc = 0x0000#16 ∧ t.faultByte = none := by decide
theorem test_unrecognized : let t := after (put 0x0210#16 0xFF#8 { State.reset with pc := 0x0210#16 })
    t.haltReason = .unrecognizedOpcode ∧ t.faultByte = some 0xFF#8 ∧ t.faultAddr = some 0x0210#16 ∧
    t.pc = 0x0211#16 ∧ t.halted = true := by decide
theorem test_halted_stays : after (after (code [0xEA#8])) = after (code [0xEA#8]) := by decide

/-! The debug gate (V10), on the image of program P1. -/

/-- P1 with the gate on and what the operator types. -/
def gated (input : List DebugCommand) : State :=
  { code [0xA9#8, 0x10#8, 0x69#8, 0x20#8, 0x8D#8, 0x00#8, 0x03#8, 0x00#8] with debugEnable := true, debugInput := input }

theorem test_gate_shows_lda : let t := after (gated [])
    t.paused = true ∧ (pauseView t).op = 0xA9#8 ∧ (pauseView t).fetchAddr = 0x0200#16 ∧ t.a = 0x00#8 ∧
    t.pc = 0x0201#16 := by decide
theorem test_gate_dump_and_malformed : let t := after (after (after (gated [.dumpMemory 0x0300 0x0300, .malformed])))
    t.paused = true ∧ t.debugInput = [] ∧ t.pc = 0x0201#16 := by decide
theorem test_gate_dump_answer : debugResponse (.dumpMemory 0x0200 0x0201) (after (gated [])) =
    .bytes [0xA9#8, 0x10#8] := by decide
theorem test_gate_step : let t := after (after (gated [.step]))
    t.paused = false ∧ t.a = 0x10#8 ∧ t.pc = 0x0202#16 := by decide
theorem test_gate_exit_runs_shown : let t := after (after (after (gated [.exit])))
    t.haltReason = .debugExit ∧ t.a = 0x10#8 ∧ t.pc = 0x0202#16 := by decide
theorem test_gate_exit_after_gate :
    let t := after (after { gated [.exit] with config := { defaultConfig with exitSample := .afterGate } })
    t.haltReason = .debugExit ∧ t.a = 0x00#8 ∧ t.pc = 0x0201#16 := by decide
theorem test_gate_exit_at_break : let t := after (after { code [] with debugEnable := true, debugInput := [.exit] })
    t.haltReason = .breakOpcode ∧ t.exitRequest = true := by decide

/-! Witnesses: for each statement with hypotheses, a concrete state and operands that meet all of them together. -/

/-- The outcome of a step is the state `after` gives. -/
theorem step_after (s : State) (h : isNext (step s) = true) : step s = .next (after s) := next_stateOr s h

theorem witness_DecodeOfEncodeIsTheInstruction : otherTable.wellFormed = true ∧
    encodeIn otherTable (.ldaImm 0x80#8) = some [0x10#8, 0x80#8] := by decide

theorem witness_EncodeOfDecodeIsTheStream_any_table : (otherTable.map fun r => (r.op, r.mode)).Nodup ∧
    decodeIn otherTable [0x10#8, 0x80#8, 0x00#8] = .instr (.ldaImm 0x80#8) [0x00#8] := by decide

theorem witness_EncodeOfDecodeIsTheStream : decode [0xAD#8, 0x21#8, 0x02#8, 0x00#8] =
    .instr (.ldaAbs 0x0221#16) [0x00#8] := by decide

theorem witness_LaunchLoadsTheImage : (List.replicate 65024 0xEA#8 : List Byte).length ≤ 65024 ∧
    65023 < (List.replicate 65024 0xEA#8 : List Byte).length ∧ (0x01FF#16 : Word).toNat < 0x0200 := by
  rw [List.length_replicate]
  decide
theorem witness_wellFormed_parameters : defaultConfig.wellFormed = true ∧ otherConfig.wellFormed = true := by
  decide +kernel
theorem witness_LaunchLoadsTheImage_above : ([0xEA#8] : List Byte).length ≤ 65024 ∧
    0x0200 + ([0xEA#8] : List Byte).length ≤ (0x0201#16 : Word).toNat := by decide
theorem witness_OverlongImageIsRefused : 65024 < (List.replicate 65025 0x00#8 : List Byte).length := by
  rw [List.length_replicate]
  decide

/-- The instruction just fetched in a state entered with `PC` past its opcode byte (R12). -/
def fetched (op b1 b2 : Byte) : State := (code [op, b1, b2]).fetchOpcode

theorem witness_DirectModesResolve :
    Claims.decodedAt ((fetched 0xA5#8 0xFF#8 0#8).pc - 1#16) (fetched 0xA5#8 0xFF#8 0#8) = .instr (.ldaZp 0xFF#8) ∧
    Claims.decodedAt ((fetched 0x95#8 0xFF#8 0#8).pc - 1#16) (fetched 0x95#8 0xFF#8 0#8) = .instr (.staZpx 0xFF#8) ∧
    Claims.decodedAt ((fetched 0xB6#8 0xFF#8 0#8).pc - 1#16) (fetched 0xB6#8 0xFF#8 0#8) = .instr (.ldxZpy 0xFF#8) ∧
    Claims.decodedAt ((fetched 0xEE#8 0x21#8 0x02#8).pc - 1#16) (fetched 0xEE#8 0x21#8 0x02#8) =
      .instr (.incAbs 0x0221#16) ∧
    Claims.decodedAt ((fetched 0x7D#8 0xFF#8 0xFF#8).pc - 1#16) (fetched 0x7D#8 0xFF#8 0xFF#8) =
      .instr (.adcAbx 0xFFFF#16) ∧
    Claims.decodedAt ((fetched 0xF9#8 0x21#8 0x02#8).pc - 1#16) (fetched 0xF9#8 0x21#8 0x02#8) =
      .instr (.sbcAby 0x0221#16) ∧
    Claims.memOperand (.ldaZp 0xFF#8) = some (.zp 0xFF#8) ∧ Claims.memOperand (.staZpx 0xFF#8) = some (.zpx 0xFF#8) ∧
    Claims.memOperand (.ldxZpy 0xFF#8) = some (.zpy 0xFF#8) ∧
    Claims.memOperand (.incAbs 0x0221#16) = some (.abs 0x0221#16) ∧
    Claims.memOperand (.adcAbx 0xFFFF#16) = some (.abx 0xFFFF#16) ∧
    Claims.memOperand (.sbcAby 0x0221#16) = some (.aby 0x0221#16) := by decide

theorem witness_IndirectModesResolve_operands :
    Claims.decodedAt ((fetched 0xA1#8 0xFF#8 0#8).pc - 1#16) (fetched 0xA1#8 0xFF#8 0#8) = .instr (.ldaIzx 0xFF#8) ∧
    Claims.decodedAt ((fetched 0x91#8 0xFF#8 0#8).pc - 1#16) (fetched 0x91#8 0xFF#8 0#8) = .instr (.staIzy 0xFF#8) ∧
    Claims.memOperand (.ldaIzx 0xFF#8) = some (.izx 0xFF#8) ∧
    Claims.memOperand (.staIzy 0xFF#8) = some (.izy 0xFF#8) := by decide

theorem witness_IncrementsAddOne :
    exec (.incZp 0x10#8) State.reset = .next (stateOr State.reset (exec (.incZp 0x10#8) State.reset)) :=
  next_stateOr _ (by decide)

theorem witness_IndirectModesResolve : pointerAtEdge.config.zpPtrWrap = .wrap8 ∧
    ({ pointerAtEdge with config := { defaultConfig with zpPtrWrap := .plain16 } } : State).config.zpPtrWrap = .plain16 := by
  decide

theorem witness_StoresWriteOneByte : (Instr.staZp 0x10#8).op = .sta ∧ (Instr.stxZp 0x10#8).op = .stx ∧
    (Instr.styZp 0x10#8).op = .sty := by decide

/-- `0x7F + 0x00 + 1`, which overflows (V4). -/
def overflowing : State := withC true { State.reset with a := 0x7F#8 }

theorem witness_AdcOverflowImpliesCarry : (Instr.adcImm 0x00#8).op = .adc ∧ overflowing.config.carryRule = .msbXor ∧
    exec (.adcImm 0x00#8) overflowing = .next (stateOr overflowing (exec (.adcImm 0x00#8) overflowing)) ∧
    (stateOr overflowing (exec (.adcImm 0x00#8) overflowing)).flags.v = true :=
  ⟨by decide, by decide, next_stateOr _ (by decide), by decide⟩

/-- A JSR handler entered with SP at the wrap. -/
def calling : State := { State.reset with pc := 0x0301#16, sp := 0x00#8 }

/-- The state its JSR leaves. -/
def called : State := stateOr calling (exec (.jsr 0x1234#16) calling)

theorem witness_ReturnContinuesAfterCall : exec (.jsr 0x1234#16) calling = .next called ∧
    ({ called with x := 0x05#8 } : State).sp = called.sp ∧
    ({ called with x := 0x05#8 } : State).mem.read (Claims.cell (called.sp + 1#8)) =
      called.mem.read (Claims.cell (called.sp + 1#8)) ∧
    ({ called with x := 0x05#8 } : State).mem.read (Claims.cell (called.sp + 2#8)) =
      called.mem.read (Claims.cell (called.sp + 2#8)) ∧
    exec .rts { called with x := 0x05#8 } =
      .next (stateOr called (exec .rts { called with x := 0x05#8 })) :=
  ⟨next_stateOr _ (by decide), rfl, rfl, rfl, next_stateOr _ (by decide)⟩

theorem witness_RegisterFormsFrame : (Instr.sec).op ∈ [Op.lda, .ldx, .ldy, .adc, .sbc, .inx, .iny, .sec, .clc] ∧
    Instr.sec.op ∉ [Op.lda, .adc, .sbc] ∧ Instr.sec.op ∉ [Op.ldx, .inx] ∧ Instr.sec.op ∉ [Op.ldy, .iny] ∧
    Instr.inx.op ∉ [Op.adc, .sbc, .sec, .clc] ∧ Instr.sec.op ∉ [Op.adc, .sbc] ∧ Instr.sec.op ∈ [Op.sec, .clc] ∧
    exec .sec State.reset = .next (stateOr State.reset (exec .sec State.reset)) :=
  ⟨by decide, by decide, by decide, by decide, by decide, by decide, by decide, next_stateOr _ (by decide)⟩

theorem witness_StoringFormsFrame :
    (Instr.staZpx 0xFF#8).op ∈ [Op.sta, .stx, .sty, .inc] ∧ (Instr.staZpx 0xFF#8).op ≠ .inc ∧
    Claims.storeTarget (.staZpx 0xFF#8) { State.reset with x := 0xFF#8 } = some 0x01FE#16 ∧
    (0x00FE#16 : Word) ≠ 0x01FE#16 ∧
    exec (.staZpx 0xFF#8) { State.reset with x := 0xFF#8 } =
      .next (stateOr State.reset (exec (.staZpx 0xFF#8) { State.reset with x := 0xFF#8 })) :=
  ⟨by decide, by decide, by decide, by decide, next_stateOr _ (by decide)⟩

theorem witness_StackFormsFrame : (Instr.jsr 0x1234#16).op ∈ [Op.jsr, .rts, .brk] ∧
    (Instr.jsr 0x1234#16).op ≠ .brk ∧ Instr.rts.op ≠ .jsr ∧ Instr.brk.op = .brk ∧
    (0x0200#16 : Word) ≠ Claims.cell calling.sp ∧ (0x0200#16 : Word) ≠ Claims.cell (calling.sp - 1#8) ∧
    exec (.jsr 0x1234#16) calling = .next called ∧ exec .brk calling = .next (stateOr calling (exec .brk calling)) :=
  ⟨by decide, by decide, by decide, by decide, by decide, by decide, next_stateOr _ (by decide), next_stateOr _ (by decide)⟩

theorem witness_StepRunsTheDecodedInstruction : Claims.ready (code [0xA9#8, 0x42#8]) ∧
    Claims.decodedAt (code [0xA9#8, 0x42#8]).pc (code [0xA9#8, 0x42#8]) = .instr (.ldaImm 0x42#8) :=
  ⟨⟨rfl, rfl, rfl, rfl⟩, by decide⟩

theorem witness_UnrecognizedOpcodeHalts : Claims.ready (code [0xFF#8]) ∧
    Claims.decodedAt (code [0xFF#8]).pc (code [0xFF#8]) = .unrecognized 0xFF#8 ∧
    step (code [0xFF#8]) = .next (after (code [0xFF#8])) ∧ (code [0xFF#8]).haltReason ≠ .unrecognizedOpcode ∧
    (after (code [0xFF#8])).haltReason = .unrecognizedOpcode :=
  ⟨⟨rfl, rfl, rfl, rfl⟩, by decide, step_after _ (by decide), by decide, by decide⟩

theorem witness_BreakHaltsPastItsByte : Claims.ready State.reset ∧ State.reset.cyclesRemaining = 0 ∧
    Claims.decodedAt State.reset.pc State.reset = .instr .brk := ⟨⟨rfl, rfl, rfl, rfl⟩, by decide, by decide⟩

/-- The reset engine halted at the break it meets. -/
def ended : State := { State.reset with pc := 0x0201#16, halted := true, haltReason := .breakOpcode }

theorem witness_HaltedEngineIsFinal : ended.halted = true ∧ reaches 1 ended ended := ⟨rfl, ended, rfl, rfl⟩

theorem witness_RunEndsInThreeWays : step State.reset = .next (after State.reset) ∧ State.reset.halted = false ∧
    (after State.reset).halted = true := ⟨step_after _ (by decide), by decide, by decide⟩

theorem witness_RunEndsInThreeWays_exit :
    step { gated [] with exitRequest := true } = .next (after { gated [] with exitRequest := true }) ∧
    (gated []).halted = false ∧ (after { gated [] with exitRequest := true }).halted = true ∧
    (after { gated [] with exitRequest := true }).haltReason = .debugExit :=
  ⟨step_after _ (by decide), by decide, by decide, by decide⟩

theorem witness_PassEndsWithCountdownZero : Claims.ready (code [0xFE#8, 0x00#8, 0x03#8]) ∧
    Claims.decodedAt (code [0xFE#8, 0x00#8, 0x03#8]).pc (code [0xFE#8, 0x00#8, 0x03#8]) = .instr (.incAbx 0x0300#16) ∧
    Instr.incAbx 0x0300#16 ≠ .brk ∧
    step (code [0xFE#8, 0x00#8, 0x03#8]) = .next (after (code [0xFE#8, 0x00#8, 0x03#8])) :=
  ⟨⟨rfl, rfl, rfl, rfl⟩, by decide, by decide, step_after _ (by decide)⟩

theorem witness_PassEndsWithCountdownZero_schedule : Instr.incAbx 0x0300#16 ≠ .brk ∧
    ({ State.reset with cyclesRemaining := 6 } : State).cyclesRemaining =
      Claims.started (.incAbx 0x0300#16) { State.reset with cyclesRemaining := 6 } Claims.cyclesByMode ∧
    isNext (exec (.incAbx 0x0300#16) { State.reset with cyclesRemaining := 6 }) = true := by decide

theorem witness_PassEndsWithCountdownZero_default : (code [0xFE#8, 0x00#8, 0x03#8]).config.optab = defaultOptab := rfl

/-- An instruction whose bytes straddle 0xFFFF. -/
def straddling : State := put 0xFFFF#16 0xA9#8 (put 0x0000#16 0x42#8 { State.reset with pc := 0xFFFF#16 })

theorem witness_ProgramCounterAdvancesByLength : Claims.ready straddling ∧ step straddling = .next (after straddling) ∧
    Claims.decodedAt straddling.pc straddling = .instr (.ldaImm 0x42#8) ∧
    (Instr.ldaImm 0x42#8).op ∉ [Op.jsr, .rts, .brk] :=
  ⟨⟨rfl, rfl, rfl, rfl⟩, step_after _ (by decide), by decide, by decide⟩

theorem witness_ProgramCounterAdvancesByLength_others :
    Claims.decodedAt 0x0200#16 (code [0x20#8, 0x21#8, 0x02#8]) = .instr (.jsr 0x0221#16) ∧
    Claims.decodedAt 0x0200#16 (code [0x60#8]) = .instr .rts ∧ Claims.decodedAt 0x0200#16 (code []) = .instr .brk ∧
    Claims.decodedAt 0x0200#16 (code [0xEA#8]) = .unrecognized 0xEA#8 ∧
    isNext (step (code [0x20#8, 0x21#8, 0x02#8])) = true ∧ isNext (step (code [0x60#8])) = true ∧
    isNext (step (code [])) = true ∧ isNext (step (code [0xEA#8])) = true := by decide

theorem witness_OnlyTheListedOperationsWrite : step (code [0x69#8, 0x80#8]) = .next (after (code [0x69#8, 0x80#8])) ∧
    (after (code [0x69#8, 0x80#8])).a ≠ (code [0x69#8, 0x80#8]).a ∧
    (after (code [0x69#8, 0x80#8])).flags.c ≠ (code [0x69#8, 0x80#8]).flags.c ∧
    (after (code [0x69#8, 0x80#8])).flags.n ≠ (code [0x69#8, 0x80#8]).flags.n :=
  ⟨step_after _ (by decide), by decide, by decide, by decide⟩

theorem witness_OnlyTheListedOperationsWrite_others :
    (after (code [0xE8#8])).x ≠ (code [0xE8#8]).x ∧ (after (code [0xC8#8])).y ≠ (code [0xC8#8]).y ∧
    (after (code [0x60#8])).sp ≠ (code [0x60#8]).sp ∧
    (after (code [0xE6#8, 0x10#8])).mem.read 0x0010#16 ≠ (code [0xE6#8, 0x10#8]).mem.read 0x0010#16 ∧
    (after { code [0x69#8, 0x7F#8] with a := 0x01#8 }).flags.v ≠ (code [0x69#8, 0x7F#8]).flags.v ∧
    (gated [] : State).exitRequest = false ∧ ({ gated [] with exitRequest := true } : State).exitRequest = true := by decide

theorem witness_OnlyCarryIsRead : (⟨true, true, true, true, true, true, true⟩ : Flags).c = overflowing.flags.c ∧
    exec (.adcImm 0x00#8) overflowing = .next (stateOr overflowing (exec (.adcImm 0x00#8) overflowing)) :=
  ⟨by decide, next_stateOr _ (by decide)⟩

theorem witness_OnlyCarryIsRead_kept : Instr.sec.op ∉ [Op.adc, .sbc] ∧
    ¬(Instr.sec.op ∈ [Op.adc, .sbc] ∨ (Instr.sec.op ∈ [Op.lda, .ldx, .ldy, .inc, .inx, .iny] ∧
      State.reset.config.loadIncFlags = .zn)) ∧
    (Instr.inx.op ∈ [Op.lda, .ldx, .ldy, .inc, .inx, .iny] ∧ State.reset.config.loadIncFlags = .zn) ∧
    isNext (exec .sec State.reset) = true ∧ isNext (exec .inx State.reset) = true := by decide

theorem witness_CountdownIsNotRead : step (code [0xE8#8]) = .next (after (code [0xE8#8])) := step_after _ (by decide)

theorem witness_StoredByteIsFetched : exec (.staAbs 0x0203#16) { State.reset with pc := 0x0201#16, a := 0xE8#8 } =
    .next (stateOr State.reset (exec (.staAbs 0x0203#16) { State.reset with pc := 0x0201#16, a := 0xE8#8 })) :=
  next_stateOr _ (by decide)

/-- A paused engine that meets the invariant. -/
theorem witness_StepKeepsTheInvariant : (after (gated [.step])).Inv ∧
    step (after (gated [.step])) = .next (after (after (gated [.step]))) := by
  refine ⟨⟨by decide, by decide, by decide, by decide, by decide, ?_, by decide, by decide⟩, step_after _ (by decide)⟩
  intro b h
  have hnone : (after (gated [.step])).faultByte = none := by decide
  rw [hnone] at h
  cases h

theorem witness_LaunchedEngineHasTheInvariant : launch defaultConfig true [.step] [0xE8#8] =
    .next (stateOr State.reset (launch defaultConfig true [.step] [0xE8#8])) := next_stateOr _ (by decide)

theorem witness_ExitIsSeenAtTheLoopHead : State.atLoopHead { gated [] with exitRequest := true } ∧
    ({ gated [] with exitRequest := true } : State).exitRequest = true ∧ (gated []).config.exitSample = .loopHead :=
  ⟨⟨rfl, rfl⟩, rfl, rfl⟩

theorem witness_GatePausesAfterTheFetch : (gated []).atLoopHead ∧ (gated []).debugEnable = true ∧
    (gated []).exitRequest = false := ⟨⟨rfl, rfl⟩, rfl, rfl⟩

/-- The engine at its first pause, with what the operator types. -/
def held (input : List DebugCommand) : State := { after (gated []) with debugInput := input }

theorem witness_InspectionChangesNothing : (held [.help]).halted = false ∧ (held [.help]).paused = true ∧
    (held [.help]).debugInput = .help :: [] ∧ (held [.dumpStack]).debugInput = .dumpStack :: [] ∧
    (held [.malformed]).debugInput = .malformed :: [] ∧
    (held [.dumpMemory 0 65536]).debugInput = .dumpMemory 0 65536 :: [] ∧ 65535 < 65536 ∧
    DebugCommand.help ≠ .step ∧ DebugCommand.help ≠ .exit ∧ DebugCommand.dumpStack ≠ .step ∧
    DebugCommand.dumpStack ≠ .exit ∧ DebugCommand.malformed ≠ .step ∧ DebugCommand.malformed ≠ .exit ∧
    DebugCommand.dumpMemory 0 65536 ≠ .step ∧ DebugCommand.dumpMemory 0 65536 ≠ .exit := by decide

theorem witness_DumpMemoryIsInclusive : (65535 ≤ 65535 ∧ 65535 + 0 ≤ 65535) ∧ (0 ≤ 65535 ∧ ¬1 + 0 ≤ 0) := by decide

theorem witness_PauseHoldsWithoutACommand : (held []).halted = false ∧ (held []).paused = true ∧
    (held []).debugInput = [] ∧ reaches 1 (held []) (held []) :=
  ⟨by decide, by decide, by decide, held [], rfl, rfl⟩

theorem witness_StepCommandRunsTheShownInstruction : (held [.step]).halted = false ∧ (held [.step]).paused = true ∧
    (held [.step]).exitRequest = false ∧ (held [.step]).debugInput = .step :: [] ∧
    Claims.decodedAt ((held [.step]).pc - 1#16) (held [.step]) = .instr (.ldaImm 0x10#8) := by decide

theorem witness_StepCommandRunsTheShownInstruction_unrecognized :
    Claims.decodedAt ((put 0x0200#16 0xFF#8 (held [.step])).pc - 1#16) (put 0x0200#16 0xFF#8 (held [.step])) =
      .unrecognized 0xFF#8 ∧ (put 0x0200#16 0xFF#8 (held [.step])).paused = true ∧
    (put 0x0200#16 0xFF#8 (held [.step])).debugInput = .step :: [] := by decide

theorem witness_ExitCommandEndsTheRun : (held [.exit]).halted = false ∧ (held [.exit]).paused = true ∧
    (held [.exit]).debugInput = .exit :: [] ∧ (held [.exit]).config.exitSample = .loopHead ∧
    Claims.decodedAt ((held [.exit]).pc - 1#16) (held [.exit]) = .instr (.ldaImm 0x10#8) ∧
    ({ held [.exit] with config := { defaultConfig with exitSample := .afterGate } } : State).config.exitSample =
      .afterGate := by decide

theorem witness_ExitCommandEndsTheRun_break : Claims.decodedAt ((put 0x0200#16 0x00#8 (held [.exit])).pc - 1#16)
      (put 0x0200#16 0x00#8 (held [.exit])) = .instr .brk ∧
    (put 0x0200#16 0x00#8 (held [.exit])).paused = true ∧
    (put 0x0200#16 0x00#8 (held [.exit])).debugInput = .exit :: [] ∧ Instr.ldaImm 0x10#8 ≠ .brk := by decide

theorem witness_ExitCommandEndsTheRun_unrecognized :
    Claims.decodedAt ((put 0x0200#16 0xFF#8 (held [.exit])).pc - 1#16) (put 0x0200#16 0xFF#8 (held [.exit])) =
      .unrecognized 0xFF#8 ∧ (put 0x0200#16 0xFF#8 (held [.exit])).paused = true ∧
    (put 0x0200#16 0xFF#8 (held [.exit])).config.exitSample = .loopHead ∧
    (put 0x0200#16 0xFF#8 (held [.exit])).debugInput = .exit :: [] := by decide

theorem test_gate_exit_at_unrecognized :
    let t := after (put 0x0200#16 0xFF#8 (held [.exit]))
    t.haltReason = .unrecognizedOpcode ∧ t.faultByte = some 0xFF#8 ∧ t.exitRequest = true := by decide

theorem witness_SubstitutedTableIsObeyed : otherConfig.wellFormed = true ∧
    (⟨0x10#8, .lda, .imm, 2, some 9⟩ : OpRow) ∈ otherConfig.optab ∧ ∀ r ∈ otherConfig.optab, r.byte ≠ 0xA9#8 := by decide

theorem witness_GateIsTransparent : (gated [.help, .dumpStack, .step, .exit]).atLoopHead ∧
    (gated [.help, .dumpStack, .step, .exit]).debugEnable = true ∧
    (gated [.help, .dumpStack, .step, .exit]).exitRequest = false ∧
    (∀ c ∈ [DebugCommand.help, .dumpStack], c ≠ .step ∧ c ≠ .exit) ∧
    (gated [.help, .dumpStack, .step, .exit]).debugInput = [.help, .dumpStack] ++ .step :: [.exit] :=
  ⟨⟨rfl, rfl⟩, rfl, rfl, by decide, rfl⟩

end Sys2Proof.Tests
end

section
/-! The shared operation behind each arm of `exec`, said once for all 58 instructions. -/

namespace Sys2Proof.Machine

/-- The operation that loads a register (R121 to R123). -/
def Reg.loadOp : Reg → Op
  | .a => .lda
  | .x => .ldx
  | .y => .ldy

/-- The operation that stores a register (R131 to R133). -/
def Reg.storeOp : Reg → Op
  | .a => .sta
  | .x => .stx
  | .y => .sty

/-- Which shared operation `exec` runs for an instruction, on which operand: the operand has as many bytes as the
instruction's mode, and a storing form stores at the instruction's own `Claims.storeOperand`. -/
inductive ExecForm : Instr → Prop where
  | load {i : Instr} {r : Reg} {o : Operand} (hexec : ∀ s, exec i s = loadRegister r o s) (hop : i.op = r.loadOp)
      (hlen : o.operandBytes = i.mode.operandBytes) : ExecForm i
  | store {i : Instr} {r : Reg} {m : MemOperand} (hexec : ∀ s, exec i s = storeRegister r m s) (hop : i.op = r.storeOp)
      (hlen : m.operandBytes = i.mode.operandBytes) (hstore : Claims.storeOperand i = some m) : ExecForm i
  | add {i : Instr} {o : Operand} (hexec : ∀ s, exec i s = addWithCarry o s) (hop : i.op = .adc)
      (hlen : o.operandBytes = i.mode.operandBytes) : ExecForm i
  | subtract {i : Instr} {o : Operand} (hexec : ∀ s, exec i s = subtractWithCarry o s) (hop : i.op = .sbc)
      (hlen : o.operandBytes = i.mode.operandBytes) : ExecForm i
  | increment {i : Instr} {m : MemOperand} (hexec : ∀ s, exec i s = incrementMemory m s) (hop : i.op = .inc)
      (hlen : m.operandBytes = i.mode.operandBytes) (hstore : Claims.storeOperand i = some m) : ExecForm i
  | inx (hexec : ∀ s, exec .inx s = incrementRegister .x s) : ExecForm .inx
  | iny (hexec : ∀ s, exec .iny s = incrementRegister .y s) : ExecForm .iny
  | sec (hexec : ∀ s, exec .sec s = writeCarry true s) : ExecForm .sec
  | clc (hexec : ∀ s, exec .clc s = writeCarry false s) : ExecForm .clc
  | jsr {target : Word} (hexec : ∀ s, exec (.jsr target) s = execJsr target s) : ExecForm (.jsr target)
  | rts (hexec : ∀ s, exec .rts s = execRts s) : ExecForm .rts
  | brk (hexec : ∀ s, exec .brk s = execBrk s) : ExecForm .brk

/-- Every instruction runs one of the shared operations (R95). -/
theorem execForm (i : Instr) : ExecForm i := by
  cases i with
  | ldaImm _ | ldaZp _ | ldaZpx _ | ldaAbs _ | ldaAbx _ | ldaAby _ | ldaIzx _ | ldaIzy _
  | ldxImm _ | ldxZp _ | ldxZpy _ | ldxAbs _ | ldxAby _
  | ldyImm _ | ldyZp _ | ldyZpx _ | ldyAbs _ | ldyAbx _ => exact .load (fun _ => rfl) rfl rfl
  | staZp _ | staZpx _ | staAbs _ | staAbx _ | staAby _ | staIzx _ | staIzy _
  | stxZp _ | stxZpy _ | stxAbs _ | styZp _ | styZpx _ | styAbs _ => exact .store (fun _ => rfl) rfl rfl rfl
  | adcImm _ | adcZp _ | adcZpx _ | adcAbs _ | adcAbx _ | adcAby _ | adcIzx _ | adcIzy _ =>
    exact .add (fun _ => rfl) rfl rfl
  | sbcImm _ | sbcZp _ | sbcZpx _ | sbcAbs _ | sbcAbx _ | sbcAby _ | sbcIzx _ | sbcIzy _ =>
    exact .subtract (fun _ => rfl) rfl rfl
  | incZp _ | incZpx _ | incAbs _ | incAbx _ => exact .increment (fun _ => rfl) rfl rfl rfl
  | inx => exact .inx fun _ => rfl
  | iny => exact .iny fun _ => rfl
  | sec => exact .sec fun _ => rfl
  | clc => exact .clc fun _ => rfl
  | jsr _ => exact .jsr fun _ => rfl
  | rts => exact .rts fun _ => rfl
  | brk => exact .brk fun _ => rfl

end Sys2Proof.Machine
end

section
/-! What a step with the gate off does: the fetch, then the end of the pass on the instruction at `PC` (R90, R92). -/

namespace Sys2Proof.Machine

/-- The pass decodes the bytes that stand at `PC` when it begins (R22, R32). -/
theorem decodeFetched_fetchOpcode_eq_decodedAt (s : State) :
    s.fetchOpcode.decodeFetched = Claims.decodedAt s.pc s := by
  have h : s.pc + 1#16 + 1#16 = s.pc + 2#16 := by bv_omega
  rw [fetchOpcode_decodeFetched, h, Claims.decodedAt]

/-- With the gate off and no exit asked for, a step is the fetch and the end of the pass. -/
theorem completePass_of_ready {s t : State} (hr : Claims.ready s) (h : step s = .next t) :
    completePass s.fetchOpcode = .next t := by
  obtain ⟨hhalted, hpaused, hexit, hgate⟩ := hr
  simpa [step, fromLoopHead, afterGate, hhalted, hpaused, hexit, hgate] using h

/-- A gate-off step of a decoded instruction is its `exec` past the opcode byte, but for the countdown before and
after (R95). -/
theorem exec_of_ready {s t : State} {i : Instr} (hr : Claims.ready s) (h : step s = .next t)
    (hi : Claims.decodedAt s.pc s = .instr i) :
    ∃ (c c' : Int) (u : State), exec i (s.fetchOpcode.setCycles c) = .next u ∧ t = u.setCycles c' := by
  rw [← decodeFetched_fetchOpcode_eq_decodedAt] at hi
  rcases completePass_cases (completePass_of_ready hr h) with
    ⟨j, n, u, hj, -, hexec, ht⟩ | ⟨j, hj, -, hexec⟩ | ⟨b, hb, -⟩
  · obtain rfl : j = i := Decoded.instr.inj (hj.symm.trans hi)
    exact ⟨_, 0, u, hexec, ht⟩
  · obtain rfl : j = i := Decoded.instr.inj (hj.symm.trans hi)
    exact ⟨s.cyclesRemaining, t.cyclesRemaining, t, hexec, rfl⟩
  · cases hb.symm.trans hi

/-- A gate-off step of a byte without a row raises UnrecognizedOpcode with the byte's own address (R212). -/
theorem unrecognized_of_ready {s t : State} {b : Byte} (hr : Claims.ready s) (h : step s = .next t)
    (hb : Claims.decodedAt s.pc s = .unrecognized b) : t = raiseUnrecognizedOpcode b s.pc s.fetchOpcode := by
  rw [← decodeFetched_fetchOpcode_eq_decodedAt] at hb
  have hpc : s.fetchOpcode.pc - 1#16 = s.pc := by rw [State.fetchOpcode_pc]; bv_omega
  have hpass := completePass_of_ready hr h
  simp only [completePass, hb, hpc] at hpass
  exact (Host.Outcome.next.inj hpass).symm

end Sys2Proof.Machine
end

section
/-! Where each instruction leaves `PC` (R23). -/

namespace Sys2Proof.Machine

@[simp] theorem State.addOperand_pc (s : State) (m : Byte) : (s.addOperand m).pc = s.pc := rfl
@[simp] theorem State.subOperand_pc (s : State) (m : Byte) : (s.subOperand m).pc = s.pc := rfl

/-- An instruction that transfers no control and is not a break leaves `PC` past its operand bytes. -/
theorem exec_pc_of_not_transfer {i : Instr} {s t : State} (h : exec i s = .next t)
    (hop : i.op ∉ [Op.jsr, Op.rts, Op.brk]) : t.pc = s.pc + BitVec.ofNat 16 i.mode.operandBytes := by
  cases execForm i with
  | load hexec _ hlen =>
    rw [hexec, loadRegister_eq, hlen] at h
    obtain rfl := Host.Outcome.next.inj h
    simp
  | store hexec _ hlen _ =>
    rw [hexec, storeRegister_eq, hlen] at h
    obtain rfl := Host.Outcome.next.inj h
    rfl
  | add hexec _ hlen =>
    rw [hexec, addWithCarry_eq, hlen] at h
    obtain rfl := Host.Outcome.next.inj h
    simp
  | subtract hexec _ hlen =>
    rw [hexec, subtractWithCarry_eq, hlen] at h
    obtain rfl := Host.Outcome.next.inj h
    simp
  | increment hexec _ hlen _ =>
    rw [hexec, incrementMemory_eq, hlen] at h
    obtain rfl := Host.Outcome.next.inj h
    rfl
  | inx hexec | iny hexec =>
    rw [hexec, incrementRegister] at h
    obtain rfl := Host.Outcome.next.inj h
    simp [Instr.mode, Mode.operandBytes]
  | sec hexec | clc hexec =>
    rw [hexec, writeCarry] at h
    obtain rfl := Host.Outcome.next.inj h
    simp [Instr.mode, Mode.operandBytes]
  | jsr _ | rts _ | brk _ => simp [Instr.op] at hop

/-- JSR leaves `PC` at its target (R186). -/
theorem exec_jsr_pc {target : Word} {s t : State} (h : exec (.jsr target) s = .next t) : t.pc = target := by
  obtain rfl := Host.Outcome.next.inj h
  rfl

/-- RTS leaves `PC` at the word popped (R187). -/
theorem exec_rts_pc {s t : State} (h : exec .rts s = .next t) : t.pc = s.popWord.1 := by
  obtain rfl := Host.Outcome.next.inj h
  rfl

/-- BRK leaves `PC` past its own byte (R200). -/
theorem exec_brk_pc {s t : State} (h : exec .brk s = .next t) : t.pc = s.pc := by
  obtain rfl := Host.Outcome.next.inj h
  rfl

/-- Moving past the opcode byte and then `n` operand bytes is one advance modulo 65536. -/
theorem pc_add_one_add (pc : Word) (n : Nat) :
    pc + 1#16 + BitVec.ofNat 16 n = BitVec.ofNat 16 (pc.toNat + (1 + n)) := by
  simp [BitVec.ofNat_add, BitVec.add_assoc]

/-- Moving past the opcode byte alone. -/
theorem pc_add_one (pc : Word) : pc + 1#16 = BitVec.ofNat 16 (pc.toNat + 1) := by
  simpa using pc_add_one_add pc 0

/-- Settles O37: a gate-off step is `exec` past the opcode byte, whose `PC` each kind of instruction decides; an
unrecognised byte is raised with `PC` past it. -/
theorem programCounterAdvancesByLength : Obligations.ProgramCounterAdvancesByLength := by
  intro s t hready hstep
  refine ⟨fun i hi hop => ?_, fun target hi => ?_, fun hi => ?_, fun hi => ?_, fun b hb => ?_⟩
  · obtain ⟨c, c', u, hexec, rfl⟩ := exec_of_ready hready hstep hi
    calc u.pc = s.pc + 1#16 + BitVec.ofNat 16 i.mode.operandBytes := exec_pc_of_not_transfer hexec hop
      _ = BitVec.ofNat 16 (s.pc.toNat + i.length) := pc_add_one_add s.pc _
  · obtain ⟨c, c', u, hexec, rfl⟩ := exec_of_ready hready hstep hi
    rw [State.setCycles_pc, exec_jsr_pc hexec]
  · obtain ⟨c, c', u, hexec, rfl⟩ := exec_of_ready hready hstep hi
    calc u.pc = (s.fetchOpcode.setCycles c).popWord.1 := exec_rts_pc hexec
      _ = s.popWord.1 := rfl
  · obtain ⟨c, c', u, hexec, rfl⟩ := exec_of_ready hready hstep hi
    exact (exec_brk_pc hexec).trans (pc_add_one s.pc)
  · obtain rfl := unrecognized_of_ready hready hstep hb
    exact pc_add_one s.pc

end Sys2Proof.Machine
end

section
/-! Effective addresses as numbers, from the bytes and registers they are made of (R103 to R111). -/

namespace Sys2Proof.Machine

/-- A mode resolves to its effective address, past its operand bytes. -/
theorem resolves_of_ea {m : MemOperand} {k addr : Nat} {s : State} (hlen : m.operandBytes = k)
    (hea : (m.ea s).toNat = addr) : Claims.resolves m k addr s :=
  fun acc => ⟨hea, _, by rw [resolve_eq, hlen]; rfl⟩

@[simp] theorem zext16_toNat (b : Byte) : (zext16 b).toNat = b.toNat :=
  BitVec.toNat_setWidth_of_le (by decide)

/-- The plain sum of two bytes needs no 16-bit wrap (R104, R105, R110). -/
theorem zext16_add_zext16_toNat (a b : Byte) : (zext16 a + zext16 b).toNat = a.toNat + b.toNat := by
  have ha := a.isLt
  have hb := b.isLt
  rw [BitVec.toNat_add, zext16_toNat, zext16_toNat]
  omega

theorem toNat_add_toNat_le (a b : Byte) : a.toNat + b.toNat ≤ 0x01FE := by
  have ha := a.isLt
  have hb := b.isLt
  omega

theorem add_zext16_toNat (w : Word) (b : Byte) : (w + zext16 b).toNat = (w.toNat + b.toNat) % 65536 := by
  rw [BitVec.toNat_add, zext16_toNat]

/-- `joinBytes_toNat` with the high byte's weight in front, as the addressing rules write an address. -/
theorem joinBytes_toNat_weight_first (hi lo : Byte) : (joinBytes hi lo).toNat = 256 * hi.toNat + lo.toNat := by
  rw [joinBytes_toNat, Nat.mul_comm]

/-- An absolute address plus an index, modulo 65536 (R107, R108). -/
theorem joinBytes_add_zext16_toNat (hi lo index : Byte) :
    (joinBytes hi lo + zext16 index).toNat = (256 * hi.toNat + lo.toNat + index.toNat) % 65536 := by
  rw [add_zext16_toNat, joinBytes_toNat_weight_first]

@[simp] theorem byteAt_toNat (s : State) (w : Word) : Claims.byteAt s w.toNat = (s.mem.read w).toNat := by
  rw [Claims.byteAt, BitVec.ofNat_toNat, BitVec.setWidth_eq]

/-! Where a pointer lies, under each value of `ZP_PTR_WRAP` (R109, R110). -/

theorem pointerX_wrap8_toNat (z x : Byte) : (pointerX .wrap8 z x).toNat = (z.toNat + x.toNat) % 256 := by
  rw [pointerX, zext16_toNat, BitVec.toNat_add]

theorem pointerX_plain16_toNat (z x : Byte) : (pointerX .plain16 z x).toNat = z.toNat + x.toNat :=
  zext16_add_zext16_toNat z x

theorem pointerHigh_wrap8_toNat (p : Word) : (pointerHigh .wrap8 p).toNat = (p.toNat + 1) % 256 := by
  rw [pointerHigh, zext16_toNat, BitVec.toNat_add, lowByte_toNat]
  exact Nat.mod_add_mod p.toNat 256 1

/-- A pointer that starts in the first two pages has its high byte plainly one above. -/
theorem pointerHigh_plain16_toNat {p : Word} (hp : p.toNat ≤ 0x01FE) :
    (pointerHigh .plain16 p).toNat = p.toNat + 1 :=
  BitVec.toNat_add_of_lt (show p.toNat + 1 < 65536 by omega)

/-- A pointer's contents, low byte first, from where its two bytes lie (R109). -/
theorem readPointer_toNat {s : State} {p : Word} {high low : Nat}
    (hhigh : (pointerHigh s.config.zpPtrWrap p).toNat = high) (hlow : p.toNat = low) :
    (s.readPointer p).toNat = 256 * Claims.byteAt s high + Claims.byteAt s low := by
  subst hhigh hlow
  rw [State.readPointer, joinBytes_toNat_weight_first, byteAt_toNat, byteAt_toNat]
  rfl

/-- Indirect,X resolves to the contents of the pointer at `pointerX` (R110). -/
theorem resolves_izx {s : State} {z : Byte} {high low : Nat}
    (hhigh : (pointerHigh s.config.zpPtrWrap (pointerX s.config.zpPtrWrap z s.x)).toNat = high)
    (hlow : (pointerX s.config.zpPtrWrap z s.x).toNat = low) :
    Claims.resolves (.izx z) 1 (256 * Claims.byteAt s high + Claims.byteAt s low) s :=
  resolves_of_ea rfl (readPointer_toNat hhigh hlow)

/-- Indirect,Y resolves to the contents of the pointer at the operand, plus `Y` modulo 65536 (R111). -/
theorem resolves_izy {s : State} {z : Byte} {high : Nat}
    (hhigh : (pointerHigh s.config.zpPtrWrap (zext16 z)).toNat = high) :
    Claims.resolves (.izy z) 1 ((256 * Claims.byteAt s high + Claims.byteAt s z.toNat + s.y.toNat) % 65536) s := by
  refine resolves_of_ea rfl ?_
  rw [MemOperand.ea, add_zext16_toNat, readPointer_toNat hhigh (zext16_toNat z)]

end Sys2Proof.Machine
end

section
/-! The operand a decoded instruction resolves, from the bytes after its opcode byte (R71, R73). -/

namespace Sys2Proof.Machine

/-- The operand a mode makes of the two bytes after the opcode byte, an address low byte first; none where the mode has
no effective address. -/
def MemOperand.ofBytes (mode : Mode) (b1 b2 : Byte) : Option MemOperand :=
  match mode with
  | .imp | .imm => none
  | .zp => some (.zp b1)
  | .zpx => some (.zpx b1)
  | .zpy => some (.zpy b1)
  | .abs => some (.abs (joinBytes b2 b1))
  | .abx => some (.abx (joinBytes b2 b1))
  | .aby => some (.aby (joinBytes b2 b1))
  | .izx => some (.izx b1)
  | .izy => some (.izy b1)

/-- The operand an instruction resolves is made of its own mode and operand bytes, whatever follows them. -/
theorem MemOperand.ofBytes_operandFields {i : Instr} {m : MemOperand} (hm : Claims.memOperand i = some m)
    (rest : List Byte) :
    MemOperand.ofBytes i.mode ((i.operandFields ++ rest).getD 0 0#8) ((i.operandFields ++ rest).getD 1 0#8) =
      some m := by
  rw [← hm]
  cases i with
  | ldaZp _ | ldaZpx _ | ldaIzx _ | ldaIzy _ | ldxZp _ | ldxZpy _ | ldyZp _ | ldyZpx _
  | staZp _ | staZpx _ | staIzx _ | staIzy _ | stxZp _ | stxZpy _ | styZp _ | styZpx _
  | adcZp _ | adcZpx _ | adcIzx _ | adcIzy _ | sbcZp _ | sbcZpx _ | sbcIzx _ | sbcIzy _
  | incZp _ | incZpx _ => rfl
  | ldaAbs _ | ldaAbx _ | ldaAby _ | ldxAbs _ | ldxAby _ | ldyAbs _ | ldyAbx _
  | staAbs _ | staAbx _ | staAby _ | stxAbs _ | styAbs _
  | adcAbs _ | adcAbx _ | adcAby _ | sbcAbs _ | sbcAbx _ | sbcAby _
  | incAbs _ | incAbx _ =>
    simp [Instr.mode, Instr.operandFields, Claims.memOperand, MemOperand.ofBytes]
  | ldaImm _ | ldxImm _ | ldyImm _ | adcImm _ | sbcImm _ | inx | iny | sec | clc | jsr _ | rts | brk => cases hm

/-- A decoded instruction's operand bytes are the first of the two after its opcode byte. -/
theorem operandFields_of_decodeBytesIn {t : OpTable} {b0 b1 b2 : Byte} {i : Instr}
    (h : decodeBytesIn t b0 b1 b2 = .instr i) : i.operandFields = [b1, b2].take i.mode.operandBytes := by
  rcases decodeBytesIn_cases t b0 b1 b2 with ⟨r, j, -, hj, hd⟩ | ⟨-, hd⟩
  · obtain rfl : j = i := Decoded.instr.inj (hd.symm.trans h)
    obtain ⟨-, hmode, hfields⟩ := Instr.ofParts_eq_some hj
    rw [hfields, hmode]
  · cases hd.symm.trans h

/-- A decoded instruction resolves the operand its mode makes of the two bytes after its opcode byte. -/
theorem memOperand_of_decodeBytesIn {t : OpTable} {b0 b1 b2 : Byte} {i : Instr} {m : MemOperand}
    (h : decodeBytesIn t b0 b1 b2 = .instr i) (hm : Claims.memOperand i = some m) :
    MemOperand.ofBytes i.mode b1 b2 = some m := by
  have hbytes : i.operandFields ++ [b1, b2].drop i.mode.operandBytes = [b1, b2] := by
    rw [operandFields_of_decodeBytesIn h, List.take_append_drop]
  have hm' := MemOperand.ofBytes_operandFields hm ([b1, b2].drop i.mode.operandBytes)
  rw [hbytes] at hm'
  exact hm'

/-- With `PC` past the opcode byte, the instruction's operand bytes stand from `PC` on (R12, R22). -/
theorem decodedAt_pc_sub_one (s : State) : Claims.decodedAt (s.pc - 1#16) s =
    decodeBytesIn s.config.optab (s.mem.read (s.pc - 1#16)) (s.mem.read s.pc) (s.mem.read (s.pc + 1#16)) := by
  have h1 : s.pc - 1#16 + 1#16 = s.pc := by bv_omega
  have h2 : s.pc - 1#16 + 2#16 = s.pc + 1#16 := by bv_omega
  rw [Claims.decodedAt, h1, h2]

/-- An instruction of a given mode whose opcode byte is at `PC - 1` resolves what that mode makes of the bytes from `PC`
on. -/
theorem memOperand_eq_of_mode {s : State} {i : Instr} {m m' : MemOperand} {mode : Mode}
    (hi : Claims.decodedAt (s.pc - 1#16) s = .instr i) (hm : Claims.memOperand i = some m)
    (hm' : MemOperand.ofBytes mode (s.mem.read s.pc) (s.mem.read (s.pc + 1#16)) = some m') (hmode : i.mode = mode) :
    m = m' := by
  rw [decodedAt_pc_sub_one] at hi
  subst hmode
  exact Option.some.inj ((memOperand_of_decodeBytesIn hi hm).symm.trans hm')

end Sys2Proof.Machine
end

section
/-! The addressing modes' statements (41_addressing.md). -/

namespace Sys2Proof.Machine

/-- Settles O10: each mode's address is a sum of zero-extended bytes, and its operand is what the mode makes of the
bytes from `PC` on. -/
theorem directModesResolve : Obligations.DirectModesResolve := by
  intro s z lo hi
  refine ⟨?zp, ⟨?zpx, toNat_add_toNat_le z s.x⟩, ⟨?zpy, toNat_add_toNat_le z s.y⟩, ?abs, ?abx, ?aby, ?operand⟩
  case zp => exact resolves_of_ea rfl (zext16_toNat z)
  case zpx => exact resolves_of_ea rfl (zext16_add_zext16_toNat z s.x)
  case zpy => exact resolves_of_ea rfl (zext16_add_zext16_toNat z s.y)
  case abs => exact resolves_of_ea rfl (joinBytes_toNat_weight_first hi lo)
  case abx => exact resolves_of_ea rfl (joinBytes_add_zext16_toNat hi lo s.x)
  case aby => exact resolves_of_ea rfl (joinBytes_add_zext16_toNat hi lo s.y)
  case operand =>
    intro i m hi hm
    exact ⟨memOperand_eq_of_mode hi hm rfl, memOperand_eq_of_mode hi hm rfl, memOperand_eq_of_mode hi hm rfl,
      memOperand_eq_of_mode hi hm rfl, memOperand_eq_of_mode hi hm rfl, memOperand_eq_of_mode hi hm rfl⟩

/-- Settles O11: both pointer bytes lie where `ZP_PTR_WRAP` puts them, and the operand is the byte at `PC`. -/
theorem indirectModesResolve : Obligations.IndirectModesResolve := by
  intro s z
  refine ⟨?wrap8, ?plain16, ?operand⟩
  case wrap8 =>
    intro hwrap
    refine ⟨resolves_izx ?_ ?_, resolves_izy ?_⟩ <;> rw [hwrap]
    · rw [pointerHigh_wrap8_toNat, pointerX_wrap8_toNat, Nat.mod_add_mod]
    · exact pointerX_wrap8_toNat z s.x
    · rw [pointerHigh_wrap8_toNat, zext16_toNat]
  case plain16 =>
    intro hwrap
    have hx := pointerX_plain16_toNat z s.x
    have hz : (zext16 z).toNat ≤ 0x01FE := (zext16_toNat z).trans_le (z.isLt.le.trans (by decide))
    refine ⟨resolves_izx ?_ ?_, resolves_izy ?_⟩ <;> rw [hwrap]
    · rw [pointerHigh_plain16_toNat (hx.trans_le (toNat_add_toNat_le z s.x)), hx]
    · exact hx
    · rw [pointerHigh_plain16_toNat hz, zext16_toNat]
  case operand =>
    intro i m hi hm
    exact ⟨memOperand_eq_of_mode hi hm rfl, memOperand_eq_of_mode hi hm rfl⟩

end Sys2Proof.Machine
end

section
/-! What a load completes as (42_load.md). -/

namespace Sys2Proof.Machine

/-- The flags `SetZN` leaves are the ones R120 states, under both values of `LOAD_INC_FLAGS`. -/
theorem Flags.setZN_eq_zn (v : Byte) (s : State) :
    s.flags.setZN s.config.loadIncFlags v = Claims.zn v s := by
  unfold Flags.setZN Claims.zn
  cases s.config.loadIncFlags with
  | zn => simp only [BitVec.msb_eq_getLsbD_last, beq_eq_decide]
  | none => rfl

/-- R120's effect of loading a value into a register, past `k` operand bytes: `Claims.loadedA`, `loadedX` and `loadedY`
as one function of the register. -/
def Reg.loaded (r : Reg) (v : Byte) (k : Nat) (s : State) : State :=
  { s.setReg r v with flags := Claims.zn v s, pc := Claims.past k s }

/-- An instruction that loads a register from an operand completes with R120's effect. -/
theorem completes_load {i : Instr} {s : State} (r : Reg) (o : Operand) (hexec : exec i s = loadRegister r o s) :
    Claims.completes i s (r.loaded (o.value s) o.operandBytes s) := by
  refine ⟨s.cyclesRemaining - o.events, ?_⟩
  rw [hexec, loadRegister_eq, Reg.loaded, ← Flags.setZN_eq_zn]
  cases r with
  | a | x | y => rfl

/-- A load in Immediate mode copies the inline byte (R102). -/
theorem completes_load_imm {i : Instr} {s : State} (r : Reg) (v : Byte)
    (hexec : exec i s = loadRegister r (.imm v) s) : Claims.completes i s (r.loaded v 1 s) :=
  completes_load r (.imm v) hexec

/-- A load in any other mode copies the byte at the effective address (R100). -/
theorem completes_load_mem {i : Instr} {s : State} (r : Reg) (m : MemOperand)
    (hexec : exec i s = loadRegister r (.mem m) s) :
    Claims.completes i s (r.loaded (Claims.dataAt m s) m.operandBytes s) :=
  completes_load r (.mem m) hexec

/-- Settles O12: each of the 18 forms loads its own register from the operand of its own mode. -/
theorem loadsCopyTheOperand : Obligations.LoadsCopyTheOperand := by
  intro s
  refine ⟨?ldaImm, ?ldaZp, ?ldaZpx, ?ldaAbs, ?ldaAbx, ?ldaAby, ?ldaIzx, ?ldaIzy,
    ?ldxImm, ?ldxZp, ?ldxZpy, ?ldxAbs, ?ldxAby, ?ldyImm, ?ldyZp, ?ldyZpx, ?ldyAbs, ?ldyAbx⟩
  case ldaImm => exact fun v => completes_load_imm .a v rfl
  case ldaZp => exact fun z => completes_load_mem .a (.zp z) rfl
  case ldaZpx => exact fun z => completes_load_mem .a (.zpx z) rfl
  case ldaAbs => exact fun w => completes_load_mem .a (.abs w) rfl
  case ldaAbx => exact fun w => completes_load_mem .a (.abx w) rfl
  case ldaAby => exact fun w => completes_load_mem .a (.aby w) rfl
  case ldaIzx => exact fun z => completes_load_mem .a (.izx z) rfl
  case ldaIzy => exact fun z => completes_load_mem .a (.izy z) rfl
  case ldxImm => exact fun v => completes_load_imm .x v rfl
  case ldxZp => exact fun z => completes_load_mem .x (.zp z) rfl
  case ldxZpy => exact fun z => completes_load_mem .x (.zpy z) rfl
  case ldxAbs => exact fun w => completes_load_mem .x (.abs w) rfl
  case ldxAby => exact fun w => completes_load_mem .x (.aby w) rfl
  case ldyImm => exact fun v => completes_load_imm .y v rfl
  case ldyZp => exact fun z => completes_load_mem .y (.zp z) rfl
  case ldyZpx => exact fun z => completes_load_mem .y (.zpx z) rfl
  case ldyAbs => exact fun w => completes_load_mem .y (.abs w) rfl
  case ldyAbx => exact fun w => completes_load_mem .y (.abx w) rfl

end Sys2Proof.Machine
end

section
/-! What a store completes as (43_store.md). -/

namespace Sys2Proof.Machine

/-- An instruction that stores a register completes with R130's effect: the register's byte at the effective address,
and `PC` past the operand bytes. -/
theorem completes_store {i : Instr} {s : State} (r : Reg) (m : MemOperand) (hexec : exec i s = storeRegister r m s) :
    Claims.completes i s (Claims.stored m (s.reg r) m.operandBytes s) := by
  refine ⟨s.cyclesRemaining - m.operandBytes - m.extraEvents .write - 1, ?_⟩
  rw [hexec, storeRegister_eq]
  rfl

/-- No store has the Immediate mode: none of the three operations admits it (R131 to R133). -/
theorem mode_ne_imm_of_store {i : Instr} (h : i.op = .sta ∨ i.op = .stx ∨ i.op = .sty) : i.mode ≠ .imm := by
  intro himm
  have hadmits : i.op.admits .imm = true := himm ▸ i.wellFormed_true
  rcases h with h | h | h <;> simp [h, Op.admits, Op.modes] at hadmits

/-- Settles O13: each of the 13 forms stores its own register at the effective address of its own mode. -/
theorem storesWriteOneByte : Obligations.StoresWriteOneByte := by
  refine ⟨fun _ => mode_ne_imm_of_store, fun s => ?_⟩
  refine ⟨?staZp, ?staZpx, ?staAbs, ?staAbx, ?staAby, ?staIzx, ?staIzy,
    ?stxZp, ?stxZpy, ?stxAbs, ?styZp, ?styZpx, ?styAbs⟩
  case staZp => exact fun z => completes_store .a (.zp z) rfl
  case staZpx => exact fun z => completes_store .a (.zpx z) rfl
  case staAbs => exact fun w => completes_store .a (.abs w) rfl
  case staAbx => exact fun w => completes_store .a (.abx w) rfl
  case staAby => exact fun w => completes_store .a (.aby w) rfl
  case staIzx => exact fun z => completes_store .a (.izx z) rfl
  case staIzy => exact fun z => completes_store .a (.izy z) rfl
  case stxZp => exact fun z => completes_store .x (.zp z) rfl
  case stxZpy => exact fun z => completes_store .x (.zpy z) rfl
  case stxAbs => exact fun w => completes_store .x (.abs w) rfl
  case styZp => exact fun z => completes_store .y (.zp z) rfl
  case styZpx => exact fun z => completes_store .y (.zpx z) rfl
  case styAbs => exact fun w => completes_store .y (.abs w) rfl

end Sys2Proof.Machine
end

section
/-! What ADC and SBC complete as (44_add_subtract.md). -/

namespace Sys2Proof.Machine

/-- The carry flag read as a number is R140's `Cin`, which the statements write out. -/
theorem bit_c_eq_cin (s : State) : bit s.flags.c = Claims.cin s := rfl

theorem cin_le_one (s : State) : Claims.cin s ≤ 1 := by
  unfold Claims.cin
  split <;> decide

theorem signCarry_eq (a r : Byte) : signCarry a r = (a.getLsbD 7 ^^ r.getLsbD 7) := by
  simp only [signCarry, BitVec.msb_eq_getLsbD_last]

theorem signOverflow_eq_overflow (a m r : Byte) : signOverflow a m r = Claims.overflow a m r := by
  simp only [signOverflow, Claims.overflow, BitVec.msb_eq_getLsbD_last]

/-- `Z` and `N` follow the result as R144 says. -/
theorem Flags.arith_eq (f : Flags) (c v : Bool) (r : Byte) :
    f.arith c v r = { f with c := c, v := v, z := decide (r = 0#8), n := r.getLsbD 7 } := by
  simp only [Flags.arith, BitVec.msb_eq_getLsbD_last, beq_eq_decide]

/-! ADC: the truncated sum and its flags. -/

/-- Adding the bytes one by one is R141's truncation of the natural sum. -/
theorem addResult_eq_sum (m : Byte) (s : State) : addResult s.a m s.flags.c = Claims.sum m s := by
  simp only [addResult, Claims.sum, bit_c_eq_cin, BitVec.ofNat_add, BitVec.ofNat_toNat, BitVec.setWidth_eq]

theorem addCarry_eq_sumCarry (m : Byte) (s : State) :
    addCarry s.config.carryRule s.a m s.flags.c = Claims.sumCarry m s := by
  unfold addCarry Claims.sumCarry
  cases s.config.carryRule with
  | msbXor => simp only [signCarry_eq, addResult_eq_sum]
  | bit8 => rfl

/-- ADC's work on an operand is R141 to R144's whole effect, but that `PC` stays: reading the operand moves it. -/
theorem State.addOperand_eq_added (s : State) (m : Byte) : s.addOperand m = { Claims.added m 0 s with pc := s.pc } := by
  rw [State.addOperand, Flags.arith_eq, addCarry_eq_sumCarry, signOverflow_eq_overflow, addResult_eq_sum]
  rfl

/-- An instruction that adds an operand completes with R141 to R144's effect. -/
theorem completes_add {i : Instr} {s : State} (o : Operand) (hexec : exec i s = addWithCarry o s) :
    Claims.completes i s (Claims.added (o.value s) o.operandBytes s) := by
  refine ⟨s.cyclesRemaining - o.events, ?_⟩
  rw [hexec, addWithCarry_eq, State.addOperand_eq_added]
  rfl

/-- Settles O14: each of the eight forms adds the operand of its own mode. -/
theorem adcAddsWithCarry : Obligations.AdcAddsWithCarry := by
  intro s
  refine ⟨?imm, ?zp, ?zpx, ?abs, ?abx, ?aby, ?izx, ?izy⟩
  case imm => exact fun v => completes_add (.imm v) rfl
  case zp => exact fun z => completes_add (.mem (.zp z)) rfl
  case zpx => exact fun z => completes_add (.mem (.zpx z)) rfl
  case abs => exact fun w => completes_add (.mem (.abs w)) rfl
  case abx => exact fun w => completes_add (.mem (.abx w)) rfl
  case aby => exact fun w => completes_add (.mem (.aby w)) rfl
  case izx => exact fun z => completes_add (.mem (.izx z)) rfl
  case izy => exact fun z => completes_add (.mem (.izy z)) rfl

/-! SBC: the truncated difference and its flags. -/

/-- Modulo 256 the difference is an addition of the complement (R146): they differ by 256 as integers. -/
theorem difference_eq_add_complement (m : Byte) (s : State) :
    Claims.difference m s = BitVec.ofNat 8 (s.a.toNat + (255 - m.toNat) + Claims.cin s) := by
  have hm := m.isLt
  apply BitVec.eq_of_toNat_eq
  rw [Claims.difference, BitVec.toNat_ofInt, BitVec.toNat_ofNat]
  omega

/-- Subtracting the bytes one by one is R146's truncation of the integer difference. -/
theorem subResult_eq_difference (m : Byte) (s : State) : subResult s.a m s.flags.c = Claims.difference m s := by
  have hm := m.isLt
  have hcin := cin_le_one s
  apply BitVec.eq_of_toNat_eq
  rw [difference_eq_add_complement, subResult, bit_c_eq_cin]
  simp only [BitVec.toNat_sub, BitVec.toNat_ofNat]
  omega

/-- Under `mos` the carry is the absence of a borrow, in naturals as in integers. -/
theorem subCarry_eq_differenceCarry (m : Byte) (s : State) :
    subCarry s.config.sbcFlags s.a m s.flags.c = Claims.differenceCarry m s := by
  unfold subCarry Claims.differenceCarry
  cases s.config.sbcFlags with
  | uniformRawOperand | uniformComplementedOperand => simp only [signCarry_eq, subResult_eq_difference]
  | mos =>
    have hcin := cin_le_one s
    rw [decide_eq_decide, bit_c_eq_cin]
    omega

theorem subOverflow_eq_differenceOverflow (m : Byte) (s : State) :
    subOverflow s.config.sbcFlags s.a m s.flags.c = Claims.differenceOverflow m s := by
  unfold subOverflow Claims.differenceOverflow
  cases s.config.sbcFlags with
  | uniformRawOperand | uniformComplementedOperand => simp only [signOverflow_eq_overflow, subResult_eq_difference]
  | mos => simp only [BitVec.msb_eq_getLsbD_last, subResult_eq_difference]

/-- SBC's work on an operand is R146's whole effect, but that `PC` stays: reading the operand moves it. -/
theorem State.subOperand_eq_subtracted (s : State) (m : Byte) : s.subOperand m = { Claims.subtracted m 0 s with pc := s.pc } := by
  rw [State.subOperand, Flags.arith_eq, subCarry_eq_differenceCarry, subOverflow_eq_differenceOverflow,
    subResult_eq_difference]
  rfl

/-- An instruction that subtracts an operand completes with R146's effect. -/
theorem completes_subtract {i : Instr} {s : State} (o : Operand) (hexec : exec i s = subtractWithCarry o s) :
    Claims.completes i s (Claims.subtracted (o.value s) o.operandBytes s) := by
  refine ⟨s.cyclesRemaining - o.events, ?_⟩
  rw [hexec, subtractWithCarry_eq, State.subOperand_eq_subtracted]
  rfl

/-- Settles O17: each of the eight forms subtracts the operand of its own mode. -/
theorem sbcSubtractsWithBorrow : Obligations.SbcSubtractsWithBorrow := by
  intro s
  refine ⟨?complement, ?imm, ?zp, ?zpx, ?abs, ?abx, ?aby, ?izx, ?izy⟩
  case complement => exact fun m => difference_eq_add_complement m s
  case imm => exact fun v => completes_subtract (.imm v) rfl
  case zp => exact fun z => completes_subtract (.mem (.zp z)) rfl
  case zpx => exact fun z => completes_subtract (.mem (.zpx z)) rfl
  case abs => exact fun w => completes_subtract (.mem (.abs w)) rfl
  case abx => exact fun w => completes_subtract (.mem (.abx w)) rfl
  case aby => exact fun w => completes_subtract (.mem (.aby w)) rfl
  case izx => exact fun z => completes_subtract (.mem (.izx z)) rfl
  case izy => exact fun z => completes_subtract (.mem (.izy z)) rfl

end Sys2Proof.Machine
end

section
/-! What the increments complete as (45_increment.md). -/

namespace Sys2Proof.Machine

/-- The increment's bit-vector addition is R160's "plus 1 modulo 256". -/
theorem add_one_eq_plusOne (v : Byte) : v + 1#8 = Claims.plusOne v := by
  simp only [Claims.plusOne, BitVec.ofNat_add, BitVec.ofNat_toNat, BitVec.setWidth_eq]

/-- INC completes with R161's effect: the byte at the effective address plus 1, written back there once. -/
theorem completes_increment {i : Instr} {s : State} (m : MemOperand) (hexec : exec i s = incrementMemory m s) :
    Claims.completes i s (Claims.incremented m m.operandBytes s) := by
  refine ⟨s.cyclesRemaining - m.operandBytes - m.extraEvents .modify - 3, ?_⟩
  rw [hexec, incrementMemory_eq, add_one_eq_plusOne, Flags.setZN_eq_zn]
  rfl

/-- Everything a register increment does (R162, R163). -/
theorem incrementRegister_eq (r : Reg) (s : State) : incrementRegister r s =
    .next { s.setReg r (Claims.plusOne (s.reg r)) with
      flags := Claims.zn (Claims.plusOne (s.reg r)) s
      cyclesRemaining := s.cyclesRemaining - 1 } := by
  rw [incrementRegister, add_one_eq_plusOne, ← Flags.setZN_eq_zn]
  cases r with
  | a | x | y => rfl

/-! Nothing decrements: what an instruction can leave in `X`, `Y` and memory. -/

/-- An index register keeps its value, is loaded, or goes up by 1. -/
theorem exec_index_reg {i : Instr} {s t : State} (h : exec i s = .next t) (r : Reg) (hr : r ≠ .a) :
    t.reg r = s.reg r ∨ i.op = r.loadOp ∨ t.reg r = Claims.plusOne (s.reg r) := by
  cases execForm i with
  | @load _ q _ hexec hop _ =>
    by_cases hq : r = q
    · exact .inr (.inl (hq ▸ hop))
    · rw [hexec, loadRegister_eq] at h
      obtain rfl := Host.Outcome.next.inj h
      exact .inl ((State.reg_setReg _ q r _).trans (if_neg hq))
  | store hexec _ _ _ =>
    rw [hexec, storeRegister_eq] at h
    obtain rfl := Host.Outcome.next.inj h
    exact .inl rfl
  | add hexec _ _ =>
    rw [hexec, addWithCarry_eq] at h
    obtain rfl := Host.Outcome.next.inj h
    exact .inl ((State.reg_setReg _ .a r _).trans (if_neg hr))
  | subtract hexec _ _ =>
    rw [hexec, subtractWithCarry_eq] at h
    obtain rfl := Host.Outcome.next.inj h
    exact .inl ((State.reg_setReg _ .a r _).trans (if_neg hr))
  | increment hexec _ _ _ =>
    rw [hexec, incrementMemory_eq] at h
    obtain rfl := Host.Outcome.next.inj h
    exact .inl rfl
  | inx hexec | iny hexec =>
    rw [hexec, incrementRegister_eq] at h
    obtain rfl := Host.Outcome.next.inj h
    cases r with
    | a => exact absurd rfl hr
    | x | y => simp
  | jsr hexec =>
    rw [hexec, execJsr, State.pushWord_eq] at h
    obtain rfl := Host.Outcome.next.inj h
    exact .inl rfl
  | sec hexec | clc hexec | rts hexec | brk hexec =>
    rw [hexec] at h
    obtain rfl := Host.Outcome.next.inj h
    exact .inl rfl

/-- Memory stays as it is, is written by a store or by JSR's pushes, or has one byte go up by 1. -/
theorem exec_mem {i : Instr} {s t : State} (h : exec i s = .next t) :
    t.mem = s.mem ∨ i.op ∈ [Op.sta, .stx, .sty, .jsr] ∨
      ∃ m : MemOperand, t.mem = s.mem.write (m.ea s) (Claims.plusOne (Claims.dataAt m s)) := by
  cases execForm i with
  | load hexec _ _ =>
    rw [hexec, loadRegister_eq] at h
    obtain rfl := Host.Outcome.next.inj h
    exact .inl (by simp)
  | @store _ r _ _ hop _ _ =>
    refine .inr (.inl ?_)
    cases r with
    | a | x | y => simp [hop, Reg.storeOp]
  | add hexec _ _ =>
    rw [hexec, addWithCarry_eq] at h
    obtain rfl := Host.Outcome.next.inj h
    exact .inl rfl
  | subtract hexec _ _ =>
    rw [hexec, subtractWithCarry_eq] at h
    obtain rfl := Host.Outcome.next.inj h
    exact .inl rfl
  | @increment _ m hexec _ _ _ =>
    rw [hexec, incrementMemory_eq, add_one_eq_plusOne] at h
    obtain rfl := Host.Outcome.next.inj h
    exact .inr (.inr ⟨m, rfl⟩)
  | jsr _ => exact .inr (.inl (by simp [Instr.op]))
  | inx hexec | iny hexec | sec hexec | clc hexec | rts hexec | brk hexec =>
    rw [hexec] at h
    obtain rfl := Host.Outcome.next.inj h
    exact .inl rfl

/-- No byte of memory goes down by an instruction's own arithmetic: it keeps its value, is stored or pushed, or goes
up by 1. -/
theorem exec_mem_read {i : Instr} {s t : State} (h : exec i s = .next t) (addr : Word) :
    t.mem.read addr = s.mem.read addr ∨ i.op ∈ [Op.sta, .stx, .sty, .jsr] ∨
      t.mem.read addr = Claims.plusOne (s.mem.read addr) := by
  rcases exec_mem h with hmem | hop | ⟨m, hmem⟩
  · exact .inl (by rw [hmem])
  · exact .inr (.inl hop)
  · by_cases haddr : addr = m.ea s
    · exact .inr (.inr (by rw [hmem, haddr, Memory.read_write_same, Claims.dataAt]))
    · exact .inl (by rw [hmem, Memory.read_write_other _ _ _ _ haddr])

/-- Settles O18: each increment form adds 1 to its own byte or register, and what any instruction leaves in `X`, `Y`
and memory is kept, loaded, stored or one more. -/
theorem incrementsAddOne : Obligations.IncrementsAddOne := by
  intro s
  refine ⟨?noDecrement, ?incZp, ?incZpx, ?incAbs, ?incAbx, ?inx, ?iny⟩
  case noDecrement =>
    exact fun i t h => ⟨exec_index_reg h .x nofun, exec_index_reg h .y nofun, exec_mem_read h⟩
  case incZp => exact fun z => completes_increment (.zp z) rfl
  case incZpx => exact fun z => completes_increment (.zpx z) rfl
  case incAbs => exact fun w => completes_increment (.abs w) rfl
  case incAbx => exact fun w => completes_increment (.abx w) rfl
  case inx => exact ⟨_, incrementRegister_eq .x s⟩
  case iny => exact ⟨_, incrementRegister_eq .y s⟩

end Sys2Proof.Machine
end

section
/-! The halts of a run at the loop head and at a break (60_exceptions.md section 1). -/

namespace Sys2Proof.Machine

/-- With the gate off and no exit asked for, a step is the pass from past the opcode byte (R90, R92). -/
theorem step_eq_completePass_of_ready {s : State} (hr : Claims.ready s) : step s = completePass s.fetchOpcode := by
  obtain ⟨hhalted, hpaused, hexit, hgate⟩ := hr
  simp [step, fromLoopHead, afterGate, hhalted, hpaused, hexit, hgate]

/-- The break halt leaves the countdown at 0 where it stood at 0, whether or not BRK's row of the table has a count
(R94, R211). -/
theorem completePass_brk {s : State} (hi : s.decodeFetched = .instr .brk) (hc : s.cyclesRemaining = 0) :
    completePass s = .next (s.halt .breakOpcode) := by
  rw [completePass, hi]
  cases hn : s.fetchedCycles with
  | none => rfl
  | some n =>
    calc endCountdown (exec .brk (s.setCycles ((n : Int) - 1)))
      _ = .next ((s.halt .breakOpcode).setCycles 0) := rfl
      _ = .next ((s.halt .breakOpcode).setCycles s.cyclesRemaining) := by rw [hc]
      _ = .next (s.halt .breakOpcode) := rfl

/-- Settles O32: the step is the fetch and the break halt. -/
theorem breakHaltsPastItsByte : Obligations.BreakHaltsPastItsByte := by
  intro s hr hc hi
  rw [← decodeFetched_fetchOpcode_eq_decodedAt] at hi
  exact ⟨_, (step_eq_completePass_of_ready hr).trans (completePass_brk hi hc), hc, rfl⟩

/-- Settles O44: the exit check stands before the fetch and the gate (R91), so the engine halts where it is. -/
theorem exitIsSeenAtTheLoopHead : Obligations.ExitIsSeenAtTheLoopHead := by
  intro s ⟨hhalted, hpaused⟩ hexit hsample
  calc step s
    _ = fromLoopHead s := by simp [step, hhalted, hpaused]
    _ = .next (s.halt .debugExit) := by simp [fromLoopHead, hexit, hsample]

end Sys2Proof.Machine
end

section
/-! The decoders and the encoder read the same rows (30_encoding.md). -/

namespace Sys2Proof

theorem Mode.operandBytes_le_two (mode : Mode) : mode.operandBytes ≤ 2 := by
  cases mode <;> decide

/-- Of the two bytes a decoder looks at after the opcode byte, those an instruction uses are the first of the stream. -/
theorem take_getD_eq_take {tail : List Byte} {n : Nat} (hn : n ≤ 2) (hlen : n ≤ tail.length) :
    [tail.getD 0 0#8, tail.getD 1 0#8].take n = tail.take n := by
  match n, tail with
  | 0, _ => rfl
  | 1, _ :: _ => rfl
  | 2, _ :: _ :: _ => rfl

/-- A stream decodes to an instruction exactly when it begins with the byte of a row of that operation and mode and the
instruction's operand bytes follow (R70, R71, R77). -/
theorem decodeIn_eq_instr_iff {t : OpTable} {stream rest : List Byte} {i : Instr} :
    decodeIn t stream = .instr i rest ↔ ∃ r, lookupOpcode t r.byte = some r ∧ r.op = i.op ∧ r.mode = i.mode ∧
      stream = r.byte :: (i.operandFields ++ rest) := by
  constructor
  · intro h
    cases stream with
    | nil => cases h
    | cons b0 tail =>
      cases hr : lookupOpcode t b0 with
      | none => simp [decodeIn, hr] at h
      | some r =>
        obtain ⟨-, rfl, hw⟩ := lookupOpcode_eq_some hr
        obtain ⟨-, hlen, -⟩ := OpRow.wellFormed_parts hw
        obtain ⟨j, hj⟩ := Instr.ofParts_of_admits (OpRow.wellFormed_parts hw).1 (tail.getD 0 0#8) (tail.getD 1 0#8)
        have hlen' : r.len - 1 = r.mode.operandBytes := by omega
        simp only [decodeIn, hr, hlen', hj] at h
        split at h
        · cases h
        · rename_i hlong
          obtain ⟨rfl, rfl⟩ := StreamDecoded.instr.inj h
          obtain ⟨hop, hmode, hfields⟩ := Instr.ofParts_eq_some hj
          rw [take_getD_eq_take r.mode.operandBytes_le_two (Nat.not_lt.1 hlong)] at hfields
          exact ⟨r, hr, hop.symm, hmode.symm, by rw [hfields, List.take_append_drop]⟩
  · rintro ⟨r, hr, hop, hmode, rfl⟩
    have hlen := (OpRow.wellFormed_parts (lookupOpcode_eq_some hr).2.2).2.1
    have hlen' : r.len - 1 = i.operandFields.length := by rw [i.operandFields_length, ← hmode]; omega
    have hshort : ¬(i.operandFields ++ rest).length < i.operandFields.length := by simp
    simp only [decodeIn, hr, hlen', hop, hmode, Instr.ofParts_operandFields i rest, if_neg hshort, List.drop_left]

/-! The default table. -/

theorem defaultOptab_wellFormed : defaultOptab.wellFormed = true := by decide +kernel

theorem defaultOptab_operation_mode_nodup : (defaultOptab.map fun r => (r.op, r.mode)).Nodup := by decide +kernel

/-- The default table has a row for each of the 58 constructors (R74). -/
theorem exists_rowOf_defaultOptab (i : Instr) : ∃ r, rowOf defaultOptab i = some r := by
  cases i <;> exact ⟨_, rfl⟩

/-- The default table has bytes for each instruction. -/
theorem encodeIn_defaultOptab (i : Instr) : encodeIn defaultOptab i = some (encode i) := by
  obtain ⟨r, hr⟩ := exists_rowOf_defaultOptab i
  simp [encode, encodeIn, hr]

/-- By a well-formed table the bytes of an instruction decode to it, with what follows them left over. -/
theorem decodeIn_of_encodeIn {t : OpTable} {i : Instr} {bs : List Byte} (ht : t.wellFormed = true)
    (henc : encodeIn t i = some bs) (rest : List Byte) : decodeIn t (bs ++ rest) = .instr i rest := by
  obtain ⟨r, hr, rfl⟩ := Option.map_eq_some_iff.1 henc
  obtain ⟨hmem, hop, hmode, hw⟩ := rowOf_eq_some hr
  exact decodeIn_eq_instr_iff.2 ⟨r, lookupOpcode_of_mem (OpTable.wellFormed_iff.1 ht).2 hmem hw, hop, hmode, rfl⟩

/-- Settles O1: the row an instruction is encoded by is the one its opcode byte finds, and the operand bytes make the
instruction again. -/
theorem decodeOfEncodeIsTheInstruction : Obligations.DecodeOfEncodeIsTheInstruction :=
  ⟨fun _ _ _ rest ht henc => decodeIn_of_encodeIn ht henc rest, encodeIn_defaultOptab,
    fun i rest => decodeIn_of_encodeIn defaultOptab_wellFormed (encodeIn_defaultOptab i) rest⟩

/-- Where no operation and mode have two rows, an instruction is encoded by the one row that has them. -/
theorem rowOf_of_mem {t : OpTable} {i : Instr} {r : OpRow} (hd : (t.map fun r => (r.op, r.mode)).Nodup) (hm : r ∈ t)
    (hw : r.wellFormed = true) (hop : r.op = i.op) (hmode : r.mode = i.mode) : rowOf t i = some r := by
  cases h : rowOf t i with
  | none =>
    have hnone := List.find?_eq_none.1 h r hm
    simp [hop, hmode, hw] at hnone
  | some q =>
    obtain ⟨hq, hqop, hqmode, -⟩ := rowOf_eq_some h
    rw [List.inj_on_of_nodup_map hd hq hm (Prod.ext (hqop.trans hop.symm) (hqmode.trans hmode.symm))]

/-- Where no operation and mode have two rows, a decoded instruction's bytes are the ones read. -/
theorem encodeIn_of_decodeIn {t : OpTable} {stream rest : List Byte} {i : Instr}
    (hd : (t.map fun r => (r.op, r.mode)).Nodup) (h : decodeIn t stream = .instr i rest) :
    ∃ bs, encodeIn t i = some bs ∧ bs ++ rest = stream := by
  obtain ⟨r, hr, hop, hmode, rfl⟩ := decodeIn_eq_instr_iff.1 h
  obtain ⟨hm, -, hw⟩ := lookupOpcode_eq_some hr
  exact ⟨r.byte :: i.operandFields, by rw [encodeIn, rowOf_of_mem hd hm hw hop hmode, Option.map_some], rfl⟩

/-- Settles O2: the row the opcode byte finds is the one the instruction is encoded by, and its operand bytes are the
ones read. -/
theorem encodeOfDecodeIsTheStream : Obligations.EncodeOfDecodeIsTheStream := by
  refine ⟨fun t stream i rest hd h => encodeIn_of_decodeIn hd h, fun stream i rest h => ?_⟩
  obtain ⟨bs, henc, hbs⟩ := encodeIn_of_decodeIn defaultOptab_operation_mode_nodup h
  obtain rfl : encode i = bs := Option.some.inj ((encodeIn_defaultOptab i).symm.trans henc)
  exact hbs

/-- The stream decoder on three bytes: the three-byte decoder's answer, with the bytes the instruction does not take
left over. -/
theorem decodeIn_three_bytes (t : OpTable) (b0 b1 b2 : Byte) :
    (∃ i, decodeBytesIn t b0 b1 b2 = .instr i ∧
      decodeIn t [b0, b1, b2] = .instr i ([b0, b1, b2].drop i.length)) ∨
    (decodeBytesIn t b0 b1 b2 = .unrecognized b0 ∧ decodeIn t [b0, b1, b2] = .unrecognized b0) := by
  rcases decodeBytesIn_cases t b0 b1 b2 with ⟨r, i, hr, hi, hd⟩ | ⟨hr, hd⟩
  · refine .inl ⟨i, hd, decodeIn_eq_instr_iff.2 ⟨r, ?_⟩⟩
    obtain ⟨-, rfl, -⟩ := lookupOpcode_eq_some hr
    obtain ⟨hop, hmode, hfields⟩ := Instr.ofParts_eq_some hi
    refine ⟨hr, hop.symm, hmode.symm, ?_⟩
    rw [hfields, Instr.length, hmode, Nat.add_comm, List.drop_succ_cons, List.take_append_drop]
  · exact .inr ⟨hd, by simp [decodeIn, hr]⟩

/-- Settles O3: the two decoders answer together, with an instruction or with the opcode byte's rejection. -/
theorem fetchedBytesDecodeAsTheStreamDoes : Obligations.FetchedBytesDecodeAsTheStreamDoes := by
  intro t b0 b1 b2
  rcases decodeIn_three_bytes t b0 b1 b2 with ⟨j, hbytes, hstream⟩ | ⟨hbytes, hstream⟩ <;> rw [hbytes, hstream]
  · refine ⟨fun i => ⟨fun h => ?_, fun h => ?_⟩, fun b => ⟨nofun, nofun⟩⟩
    · rw [Decoded.instr.inj h]
    · rw [(StreamDecoded.instr.inj h).1]
  · refine ⟨fun i => ⟨nofun, nofun⟩, fun b => ⟨fun h => ?_, fun h => ?_⟩⟩
    · rw [Decoded.unrecognized.inj h]
    · rw [StreamDecoded.unrecognized.inj h]

/-! Which opcode bytes have a row. -/

/-- The three-byte decoder rejects an opcode byte exactly when the lookup finds no row for it (R76). -/
theorem decodeBytesIn_eq_unrecognized_iff {t : OpTable} {b0 b1 b2 b : Byte} :
    decodeBytesIn t b0 b1 b2 = .unrecognized b ↔ lookupOpcode t b0 = none ∧ b = b0 := by
  rcases decodeBytesIn_cases t b0 b1 b2 with ⟨r, i, hr, -, hd⟩ | ⟨hr, hd⟩ <;> simp [hr, hd, eq_comm]

/-- In a well-formed table the lookup finds no row exactly for the bytes no row has. -/
theorem lookupOpcode_eq_none_iff_not_mem {t : OpTable} (ht : t.wellFormed = true) {b : Byte} :
    lookupOpcode t b = none ↔ b ∉ t.map OpRow.byte := by
  have hrows := (OpTable.wellFormed_iff.1 ht).1
  rw [lookupOpcode_eq_none, List.mem_map, not_exists]
  exact forall_congr' fun r => ⟨fun h hr => h hr.1 (hrows r hr.1) hr.2, fun h hr _ hb => h ⟨hr, hb⟩⟩

theorem decodeBytesIn_rejects_iff {t : OpTable} (ht : t.wellFormed = true) {b b1 b2 : Byte} :
    decodeBytesIn t b b1 b2 = .unrecognized b ↔ b ∉ t.map OpRow.byte := by
  rw [decodeBytesIn_eq_unrecognized_iff, lookupOpcode_eq_none_iff_not_mem ht, and_iff_left rfl]

/-- Settles O4: a byte is rejected where the lookup finds no row, and the default table's bytes are the 58 of R74. -/
theorem unlistedOpcodeBytesAreRejected : Obligations.UnlistedOpcodeBytesAreRejected :=
  ⟨fun _ _ _ _ ht => decodeBytesIn_rejects_iff ht, fun _ _ _ => decodeBytesIn_rejects_iff defaultOptab_wellFormed,
    by decide +kernel⟩

/-- Settles O5: the default table's rows and the little-endian operand rule, evaluated. -/
theorem writtenOutWordsDecode : Obligations.WrittenOutWordsDecode := by
  unfold Obligations.WrittenOutWordsDecode
  decide

/-- Every row of the default table has the count R270 lists for its operation and mode. -/
theorem cyc_eq_cyclesByMode_of_mem_defaultOptab :
    ∀ r ∈ defaultOptab, r.cyc = Claims.cyclesByMode r.op r.mode := by decide

/-- Settles O6: the instruction's row has its operation and mode, and each row's count is the listed one. -/
theorem cycleCountsAreTheListedOnes : Obligations.CycleCountsAreTheListedOnes := by
  intro i
  obtain ⟨r, hr⟩ := exists_rowOf_defaultOptab i
  obtain ⟨hm, hop, hmode, -⟩ := rowOf_eq_some hr
  rw [hr, Option.map_some, cyc_eq_cyclesByMode_of_mem_defaultOptab r hm, hop, hmode]

end Sys2Proof
end

section
/-! What executing an instruction can change, and what it depends on: one lemma each for every instruction. -/

namespace Sys2Proof.Machine

/-! Call and return, said once. -/

/-- The return address counted from `PC` past both operand bytes is R186's, counted from the first. -/
theorem returnAddress_eq_pushed (s : State) : returnAddress s.config.jsrPush (s.pc + 2#16) = Claims.pushed s := by
  unfold returnAddress Claims.pushed
  cases s.config.jsrPush with
  | nextInstruction => rfl
  | lastByte => bv_omega

/-- Everything JSR does, with R186's return address. -/
theorem exec_jsr_eq (target : Word) (s : State) : exec (.jsr target) s =
    .next { (s.pushWord (Claims.pushed s)) with
      pc := target
      cyclesRemaining := s.cyclesRemaining - 2 - 1 - 1 - 1 } := by
  rw [← returnAddress_eq_pushed]
  rfl

/-- Everything RTS does (R187). -/
theorem exec_rts_eq (s : State) : exec .rts s =
    .next { s with pc := s.popWord.1, sp := s.sp + 1#8 + 1#8, cyclesRemaining := s.cyclesRemaining - 1 - 1 - 3 } := by
  change Host.Outcome.next ((s.popWord.2.setPC s.popWord.1).consume 3) = _
  rw [State.popWord_eq]
  rfl

/-! What `SetZN` leaves of the flags. -/

@[simp] theorem Flags.setZN_c (f : Flags) (mode : LoadIncFlags) (v : Byte) : (f.setZN mode v).c = f.c := by
  cases mode <;> rfl
@[simp] theorem Flags.setZN_i (f : Flags) (mode : LoadIncFlags) (v : Byte) : (f.setZN mode v).i = f.i := by
  cases mode <;> rfl
@[simp] theorem Flags.setZN_d (f : Flags) (mode : LoadIncFlags) (v : Byte) : (f.setZN mode v).d = f.d := by
  cases mode <;> rfl
@[simp] theorem Flags.setZN_b (f : Flags) (mode : LoadIncFlags) (v : Byte) : (f.setZN mode v).b = f.b := by
  cases mode <;> rfl
@[simp] theorem Flags.setZN_v (f : Flags) (mode : LoadIncFlags) (v : Byte) : (f.setZN mode v).v = f.v := by
  cases mode <;> rfl

/-- The four ways an instruction writes flags: none, `SetZN` of a value (R120), the arithmetic unit's four (R142 to
R144), and `C` alone (R170, R171). -/
inductive FlagWrite where
  | keep
  | zn (v : Byte)
  | arith (c v : Bool) (r : Byte)
  | carry (c : Bool)

/-- The flags a write leaves, under a value of `LOAD_INC_FLAGS`. -/
def FlagWrite.apply (w : FlagWrite) (mode : LoadIncFlags) (f : Flags) : Flags :=
  match w with
  | .keep => f
  | .zn v => f.setZN mode v
  | .arith c v r => f.arith c v r
  | .carry c => { f with c := c }

/-- The operations that write flags in each way. -/
def FlagWrite.ops : FlagWrite → List Op
  | .keep => [.sta, .stx, .sty, .jsr, .rts, .brk]
  | .zn _ => [.lda, .ldx, .ldy, .inc, .inx, .iny]
  | .arith _ _ _ => [.adc, .sbc]
  | .carry _ => [.sec, .clc]

theorem Reg.loadOp_mem_zn_ops (r : Reg) (v : Byte) : r.loadOp ∈ (FlagWrite.zn v).ops := by
  cases r <;> simp [Reg.loadOp, FlagWrite.ops]

theorem Reg.storeOp_mem_keep_ops (r : Reg) : r.storeOp ∈ FlagWrite.keep.ops := by
  cases r <;> simp [Reg.storeOp, FlagWrite.ops]

/-- No instruction reads a flag other than `C`, the countdown or `DEBUG_ENABLE` (R26, R27, R29): from a state with other
values of them the same instruction leads to the same next state but for the flags it keeps, the countdown and
`DEBUG_ENABLE`. It writes flags in one way, with the same values in both; `left` is what its events leave of a
countdown. -/
theorem exec_reads_only_carry {i : Instr} {s t : State} (h : exec i s = .next t) :
    ∃ (w : FlagWrite) (left : Int → Int), i.op ∈ w.ops ∧ ∀ (f : Flags) (n : Int) (dbg : Bool), f.c = s.flags.c →
      exec i { s with flags := f, cyclesRemaining := n, debugEnable := dbg } =
        .next { t with
          flags := w.apply s.config.loadIncFlags f, cyclesRemaining := left n, debugEnable := dbg } := by
  cases execForm i with
  | @load _ r o hexec hop _ =>
    rw [hexec, loadRegister_eq] at h
    obtain rfl := Host.Outcome.next.inj h
    refine ⟨.zn (o.value s), fun n => n - o.events, hop ▸ r.loadOp_mem_zn_ops _, fun f n dbg _ => ?_⟩
    rw [hexec, loadRegister_eq]
    cases r <;> cases o <;> rfl
  | @store _ r m hexec hop _ _ =>
    rw [hexec, storeRegister_eq] at h
    obtain rfl := Host.Outcome.next.inj h
    refine ⟨.keep, fun n => n - m.operandBytes - m.extraEvents .write - 1, hop ▸ r.storeOp_mem_keep_ops,
      fun f n dbg _ => ?_⟩
    rw [hexec, storeRegister_eq]
    cases r <;> rfl
  | @add _ o hexec hop _ =>
    rw [hexec, addWithCarry_eq] at h
    obtain rfl := Host.Outcome.next.inj h
    refine ⟨.arith (addCarry s.config.carryRule s.a (o.value s) s.flags.c)
      (signOverflow s.a (o.value s) (addResult s.a (o.value s) s.flags.c)) (addResult s.a (o.value s) s.flags.c),
      fun n => n - o.events, by simp [hop, FlagWrite.ops], fun f n dbg hf => ?_⟩
    simp only [hexec, addWithCarry_eq, State.addOperand, hf]
    cases o <;> rfl
  | @subtract _ o hexec hop _ =>
    rw [hexec, subtractWithCarry_eq] at h
    obtain rfl := Host.Outcome.next.inj h
    refine ⟨.arith (subCarry s.config.sbcFlags s.a (o.value s) s.flags.c)
      (subOverflow s.config.sbcFlags s.a (o.value s) s.flags.c) (subResult s.a (o.value s) s.flags.c),
      fun n => n - o.events, by simp [hop, FlagWrite.ops], fun f n dbg hf => ?_⟩
    simp only [hexec, subtractWithCarry_eq, State.subOperand, hf]
    cases o <;> rfl
  | @increment _ m hexec hop _ _ =>
    rw [hexec, incrementMemory_eq] at h
    obtain rfl := Host.Outcome.next.inj h
    refine ⟨.zn (s.mem.read (m.ea s) + 1#8), fun n => n - m.operandBytes - m.extraEvents .modify - 3,
      by simp [hop, FlagWrite.ops], fun f n dbg _ => ?_⟩
    rw [hexec, incrementMemory_eq]
    rfl
  | inx hexec =>
    rw [hexec] at h
    obtain rfl := Host.Outcome.next.inj h
    exact ⟨.zn (s.x + 1#8), fun n => n - 1, by simp [Instr.op, FlagWrite.ops], fun f n dbg _ => rfl⟩
  | iny hexec =>
    rw [hexec] at h
    obtain rfl := Host.Outcome.next.inj h
    exact ⟨.zn (s.y + 1#8), fun n => n - 1, by simp [Instr.op, FlagWrite.ops], fun f n dbg _ => rfl⟩
  | sec hexec =>
    rw [hexec] at h
    obtain rfl := Host.Outcome.next.inj h
    exact ⟨.carry true, fun n => n - 1, by simp [Instr.op, FlagWrite.ops], fun f n dbg _ => rfl⟩
  | clc hexec =>
    rw [hexec] at h
    obtain rfl := Host.Outcome.next.inj h
    exact ⟨.carry false, fun n => n - 1, by simp [Instr.op, FlagWrite.ops], fun f n dbg _ => rfl⟩
  | jsr _ =>
    rw [exec_jsr_eq, State.pushWord_eq] at h
    obtain rfl := Host.Outcome.next.inj h
    exact ⟨.keep, fun n => n - 2 - 1 - 1 - 1, by simp [Instr.op, FlagWrite.ops], fun f n dbg _ => exec_jsr_eq _ _⟩
  | rts _ =>
    rw [exec_rts_eq] at h
    obtain rfl := Host.Outcome.next.inj h
    exact ⟨.keep, fun n => n - 1 - 1 - 3, by simp [Instr.op, FlagWrite.ops], fun f n dbg _ => exec_rts_eq _⟩
  | brk hexec =>
    rw [hexec] at h
    obtain rfl := Host.Outcome.next.inj h
    exact ⟨.keep, id, by simp [Instr.op, FlagWrite.ops], fun f n dbg _ => rfl⟩

/-- `exec_reads_only_carry` with what it says of the run itself: its flags, its countdown and its `DEBUG_ENABLE`. -/
theorem exec_variants {i : Instr} {s t : State} (h : exec i s = .next t) :
    ∃ (w : FlagWrite) (left : Int → Int), i.op ∈ w.ops ∧
      (t.flags = w.apply s.config.loadIncFlags s.flags ∧ t.cyclesRemaining = left s.cyclesRemaining ∧
        t.debugEnable = s.debugEnable) ∧
      ∀ (f : Flags) (n : Int) (dbg : Bool), f.c = s.flags.c →
        exec i { s with flags := f, cyclesRemaining := n, debugEnable := dbg } =
          .next { t with
            flags := w.apply s.config.loadIncFlags f, cyclesRemaining := left n, debugEnable := dbg } := by
  obtain ⟨w, left, hw, hexec⟩ := exec_reads_only_carry h
  have hself := Host.Outcome.next.inj (h.symm.trans (hexec s.flags s.cyclesRemaining s.debugEnable rfl))
  exact ⟨w, left, hw, ⟨congrArg State.flags hself, congrArg State.cyclesRemaining hself,
    (congrArg State.debugEnable hself).trans rfl⟩, hexec⟩

/-- The flags an instruction leaves, in a run and in one that differs from it in flags other than `C`. -/
theorem exec_with_flags {i : Instr} {s t : State} (h : exec i s = .next t) :
    ∃ w : FlagWrite, i.op ∈ w.ops ∧ t.flags = w.apply s.config.loadIncFlags s.flags ∧
      ∀ f : Flags, f.c = s.flags.c →
        exec i { s with flags := f } = .next { t with flags := w.apply s.config.loadIncFlags f } := by
  obtain ⟨w, left, hw, ⟨hflags, hcycles, hgate⟩, hexec⟩ := exec_variants h
  refine ⟨w, hw, hflags, fun f hf => ?_⟩
  rw [hexec f s.cyclesRemaining s.debugEnable hf, ← hcycles, ← hgate]

/-- The flags an instruction leaves. -/
theorem exec_flags {i : Instr} {s t : State} (h : exec i s = .next t) :
    ∃ w : FlagWrite, i.op ∈ w.ops ∧ t.flags = w.apply s.config.loadIncFlags s.flags := by
  obtain ⟨w, hw, hflags, -⟩ := exec_with_flags h
  exact ⟨w, hw, hflags⟩

/-! Which flags a write of an operation keeps. -/

/-- An operation of one list is not in a list that shares none with it. -/
theorem Op.not_mem_of_mem {op : Op} {ops others : List Op} (h : op ∈ ops)
    (hd : ops.all (fun o => !others.contains o) = true) : op ∉ others := by
  simpa using List.all_eq_true.1 hd op h

section
variable {w : FlagWrite} {op : Op} (hw : op ∈ w.ops) (mode : LoadIncFlags) (f : Flags)
include hw

theorem FlagWrite.apply_c (hop : op ∉ [Op.adc, .sbc, .sec, .clc]) : (w.apply mode f).c = f.c := by
  cases w with
  | keep => rfl
  | zn v => exact Flags.setZN_c f mode v
  | arith | carry => simp_all [FlagWrite.ops]

theorem FlagWrite.apply_v (hop : op ∉ [Op.adc, .sbc]) : (w.apply mode f).v = f.v := by
  cases w with
  | keep | carry => rfl
  | zn v => exact Flags.setZN_v f mode v
  | arith => exact absurd hw hop

/-- `Z` and `N` stay where the operation writes neither, or only by `SetZN` and `LOAD_INC_FLAGS` takes that away. -/
theorem FlagWrite.apply_zn_of_not_written
    (h : ¬(op ∈ [Op.adc, .sbc] ∨ (op ∈ [Op.lda, .ldx, .ldy, .inc, .inx, .iny] ∧ mode = .zn))) :
    (w.apply mode f).z = f.z ∧ (w.apply mode f).n = f.n := by
  cases w with
  | keep | carry => exact ⟨rfl, rfl⟩
  | arith => exact absurd (.inl hw) h
  | zn v =>
    cases mode with
    | zn => exact absurd (.inr ⟨hw, rfl⟩) h
    | none => exact ⟨rfl, rfl⟩

theorem FlagWrite.apply_zn (hop : op ∉ [Op.adc, .sbc, .lda, .ldx, .ldy, .inc, .inx, .iny]) :
    (w.apply mode f).z = f.z ∧ (w.apply mode f).n = f.n := by
  refine FlagWrite.apply_zn_of_not_written hw mode f ?_
  simp only [List.mem_cons, List.not_mem_nil, or_false] at hop ⊢
  tauto

theorem FlagWrite.apply_eq_self (hop : op ∈ FlagWrite.keep.ops) : w.apply mode f = f := by
  cases w with
  | keep => rfl
  | zn | arith | carry => exact absurd hw (Op.not_mem_of_mem hop rfl)

/-! Which flags a write of an operation leaves the same from any two states. -/

theorem FlagWrite.apply_v_congr (g : Flags) (hop : op ∈ [Op.adc, .sbc]) :
    (w.apply mode f).v = (w.apply mode g).v := by
  cases w with
  | arith => rfl
  | keep | zn | carry => exact absurd hw (Op.not_mem_of_mem hop rfl)

theorem FlagWrite.apply_zn_congr (g : Flags)
    (h : op ∈ [Op.adc, .sbc] ∨ (op ∈ [Op.lda, .ldx, .ldy, .inc, .inx, .iny] ∧ mode = .zn)) :
    (w.apply mode f).z = (w.apply mode g).z ∧ (w.apply mode f).n = (w.apply mode g).n := by
  rcases h with hop | ⟨hop, rfl⟩
  · cases w with
    | arith => exact ⟨rfl, rfl⟩
    | keep | zn | carry => exact absurd hw (Op.not_mem_of_mem hop rfl)
  · cases w with
    | zn => exact ⟨rfl, rfl⟩
    | keep | arith | carry => exact absurd hw (Op.not_mem_of_mem hop rfl)

end

theorem FlagWrite.apply_c_congr (w : FlagWrite) (mode : LoadIncFlags) {f g : Flags} (h : f.c = g.c) :
    (w.apply mode f).c = (w.apply mode g).c := by
  cases w with
  | keep => exact h
  | zn v => simp [FlagWrite.apply, h]
  | arith | carry => rfl

/-- No write touches `I`, `D` or `B` (R26). -/
theorem FlagWrite.apply_unused (w : FlagWrite) (mode : LoadIncFlags) (f : Flags) :
    (w.apply mode f).i = f.i ∧ (w.apply mode f).d = f.d ∧ (w.apply mode f).b = f.b := by
  cases w with
  | keep | arith | carry => exact ⟨rfl, rfl, rfl⟩
  | zn v => exact ⟨Flags.setZN_i f mode v, Flags.setZN_d f mode v, Flags.setZN_b f mode v⟩

/-- What an instruction does to memory: nothing, one byte at its own effective address (R130, R161), or the two pushes
of JSR (R186). -/
inductive MemWrite (i : Instr) (s : State) : Memory → Prop where
  | none (hop : i.op ∉ [Op.sta, .stx, .sty, .inc, .jsr]) : MemWrite i s s.mem
  | store (hop : i.op ∈ [Op.sta, .stx, .sty, .inc]) (m : MemOperand) (hm : Claims.storeOperand i = some m) (v : Byte) :
      MemWrite i s (s.mem.write (m.ea s) v)
  | push (hop : i.op = .jsr) (lo hi : Byte) :
      MemWrite i s ((s.mem.write (stackCell s.sp) lo).write (stackCell (s.sp - 1#8)) hi)

theorem exec_memWrite {i : Instr} {s t : State} (h : exec i s = .next t) : MemWrite i s t.mem := by
  cases execForm i with
  | @load _ r o hexec hop _ =>
    rw [hexec, loadRegister_eq] at h
    obtain rfl := Host.Outcome.next.inj h
    rw [State.setZN_mem, State.setReg_mem]
    exact .none (by cases r <;> simp [hop, Reg.loadOp])
  | @store _ r m hexec hop _ hm =>
    rw [hexec, storeRegister_eq] at h
    obtain rfl := Host.Outcome.next.inj h
    exact .store (by cases r <;> simp [hop, Reg.storeOp]) m hm _
  | add hexec hop _ =>
    rw [hexec, addWithCarry_eq] at h
    obtain rfl := Host.Outcome.next.inj h
    exact .none (by simp [hop])
  | subtract hexec hop _ =>
    rw [hexec, subtractWithCarry_eq] at h
    obtain rfl := Host.Outcome.next.inj h
    exact .none (by simp [hop])
  | @increment _ m hexec hop _ hm =>
    rw [hexec, incrementMemory_eq] at h
    obtain rfl := Host.Outcome.next.inj h
    exact .store (by simp [hop]) m hm _
  | jsr _ =>
    rw [exec_jsr_eq, State.pushWord_eq] at h
    obtain rfl := Host.Outcome.next.inj h
    exact .push rfl _ _
  | rts _ =>
    rw [exec_rts_eq] at h
    obtain rfl := Host.Outcome.next.inj h
    exact .none (by simp [Instr.op])
  | inx hexec | iny hexec | sec hexec | clc hexec | brk hexec =>
    rw [hexec] at h
    obtain rfl := Host.Outcome.next.inj h
    exact .none (by simp [Instr.op])

/-- What an instruction leaves unchanged in the registers and the control state: only its own operations write `A`, `X`,
`Y` and `SP` (R20, R24), only BRK halts, and no instruction writes the other latches, the host's inputs or the
parameters. -/
structure ExecFrame (i : Instr) (s t : State) : Prop where
  a : i.op ∉ [Op.lda, .adc, .sbc] → t.a = s.a
  x : i.op ∉ [Op.ldx, .inx] → t.x = s.x
  y : i.op ∉ [Op.ldy, .iny] → t.y = s.y
  sp : i.op ∉ [Op.jsr, .rts] → t.sp = s.sp
  halted : i.op ≠ .brk → t.halted = s.halted
  haltReason : i.op ≠ .brk → t.haltReason = s.haltReason
  faultByte : t.faultByte = s.faultByte
  faultAddr : t.faultAddr = s.faultAddr
  exitRequest : t.exitRequest = s.exitRequest
  paused : t.paused = s.paused
  debugEnable : t.debugEnable = s.debugEnable
  debugInput : t.debugInput = s.debugInput
  config : t.config = s.config

theorem exec_frame {i : Instr} {s t : State} (h : exec i s = .next t) : ExecFrame i s t := by
  cases execForm i with
  | @load _ r _ hexec hop _ =>
    rw [hexec, loadRegister_eq] at h
    obtain rfl := Host.Outcome.next.inj h
    cases r <;> constructor <;> simp [hop, Reg.loadOp]
  | @store _ r _ hexec _ _ _ =>
    rw [hexec, storeRegister_eq] at h
    obtain rfl := Host.Outcome.next.inj h
    constructor <;> simp
  | add hexec hop _ =>
    rw [hexec, addWithCarry_eq] at h
    obtain rfl := Host.Outcome.next.inj h
    constructor <;> simp [hop, State.addOperand]
  | subtract hexec hop _ =>
    rw [hexec, subtractWithCarry_eq] at h
    obtain rfl := Host.Outcome.next.inj h
    constructor <;> simp [hop, State.subOperand]
  | increment hexec _ _ _ =>
    rw [hexec, incrementMemory_eq] at h
    obtain rfl := Host.Outcome.next.inj h
    constructor <;> simp
  | inx hexec | iny hexec =>
    rw [hexec, incrementRegister] at h
    obtain rfl := Host.Outcome.next.inj h
    constructor <;> simp [Instr.op]
  | sec hexec | clc hexec =>
    rw [hexec, writeCarry] at h
    obtain rfl := Host.Outcome.next.inj h
    constructor <;> simp
  | jsr _ =>
    rw [exec_jsr_eq, State.pushWord_eq] at h
    obtain rfl := Host.Outcome.next.inj h
    constructor <;> simp [Instr.op]
  | rts _ =>
    rw [exec_rts_eq] at h
    obtain rfl := Host.Outcome.next.inj h
    constructor <;> simp [Instr.op]
  | brk hexec =>
    rw [hexec, execBrk] at h
    obtain rfl := Host.Outcome.next.inj h
    constructor <;> simp [Instr.op]

/-- Where the instruction is not BRK, every latch, host input and parameter is unchanged. -/
theorem ExecFrame.controlUnchanged {i : Instr} {s t : State} (hf : ExecFrame i s t) (hop : i.op ≠ .brk) :
    Claims.controlUnchanged s t :=
  ⟨hf.halted hop, hf.haltReason hop, hf.faultByte, hf.faultAddr, hf.exitRequest, hf.paused, hf.debugEnable,
    hf.debugInput, hf.config⟩

/-- No instruction faults or is refused (R97). -/
theorem exec_next (i : Instr) (s : State) : ∃ t, exec i s = .next t := by
  cases execForm i with
  | load hexec _ _ | store hexec _ _ _ | add hexec _ _ | subtract hexec _ _ | increment hexec _ _ _
  | inx hexec | iny hexec | sec hexec | clc hexec | jsr hexec | rts hexec | brk hexec => exact ⟨_, hexec s⟩

theorem Instr.eq_brk_of_op {i : Instr} (h : i.op = .brk) : i = .brk := by
  cases i with
  | brk => rfl
  | _ => cases h

/-! Reading memory after an instruction. -/

/-- Only the storing operations and JSR write memory. -/
theorem MemWrite.eq_mem {i : Instr} {s : State} {m : Memory} (hm : MemWrite i s m)
    (hop : i.op ∉ [Op.sta, .stx, .sty, .inc, .jsr]) : m = s.mem := by
  cases hm with
  | none => rfl
  | store hop' => simp_all
  | push hop' => simp [hop'] at hop

/-- A storing operation has a store address, and writes no other byte. -/
theorem MemWrite.store_frame {i : Instr} {s : State} {m : Memory} (hm : MemWrite i s m)
    (hop : i.op ∈ [Op.sta, .stx, .sty, .inc]) :
    ∃ target, Claims.storeTarget i s = some target ∧ ∀ addr, addr ≠ target → m.read addr = s.mem.read addr := by
  cases hm with
  | none hop' => simp_all
  | store _ o ho v =>
    exact ⟨o.ea s, by rw [Claims.storeTarget, ho, Option.map_some], fun addr => Memory.read_write_other _ _ _ _⟩
  | push hop' => simp [hop'] at hop

theorem stackCell_eq_cell (p : Byte) : stackCell p = Claims.cell p := by
  apply BitVec.eq_of_toNat_eq
  rw [stackCell, stackPage, BitVec.toNat_add, zext16_toNat, Claims.cell, BitVec.toNat_ofNat, BitVec.toNat_ofNat]

/-- A stack operation writes no byte outside the two cells JSR pushes to. -/
theorem MemWrite.stack_frame {i : Instr} {s : State} {m : Memory} (hm : MemWrite i s m)
    (hop : i.op ∈ [Op.jsr, .rts, .brk]) {addr : Word}
    (haddr : i.op ≠ .jsr ∨ (addr ≠ Claims.cell s.sp ∧ addr ≠ Claims.cell (s.sp - 1#8))) :
    m.read addr = s.mem.read addr := by
  cases hm with
  | none => rfl
  | store hop' => exact absurd hop' (Op.not_mem_of_mem hop (by decide))
  | push hop' lo hi =>
    obtain ⟨hlo, hhi⟩ := haddr.resolve_left (absurd hop')
    rw [← stackCell_eq_cell] at hlo hhi
    rw [Memory.read_write_other _ _ _ _ hhi, Memory.read_write_other _ _ _ _ hlo]

/-- Memory stays canonical. -/
theorem MemWrite.wf {i : Instr} {s : State} {m : Memory} (hm : MemWrite i s m) (h : s.mem.wf = true) : m.wf = true := by
  cases hm with
  | none => exact h
  | store => exact Memory.wf_write h _ _
  | push => exact Memory.wf_write (Memory.wf_write h _ _) _ _

end Sys2Proof.Machine
end

section
/-! What each kind of instruction leaves unchanged (42_load.md to 48_break.md). -/

namespace Sys2Proof.Machine

/-- Settles O39: the two runs write flags in the same way, and from flags with the same `C` each written flag is the
same. -/
theorem onlyCarryIsRead : Obligations.OnlyCarryIsRead := by
  intro i s t f hf h
  obtain ⟨w, hw, hflags, hexec⟩ := exec_with_flags h
  obtain ⟨hi, hd, hb⟩ := w.apply_unused s.config.loadIncFlags s.flags
  obtain ⟨hi', hd', hb'⟩ := w.apply_unused s.config.loadIncFlags f
  refine ⟨w.apply s.config.loadIncFlags f, hexec f hf, ?_⟩
  rw [hflags]
  refine ⟨w.apply_c_congr _ hf, w.apply_v_congr hw _ _ _, fun hv => ⟨w.apply_v hw _ _ hv, w.apply_v hw _ _ hv⟩,
    w.apply_zn_congr hw _ _ _, ?_, hi', hd', hb', hi, hd, hb⟩
  intro hzn
  obtain ⟨hz, hn⟩ := w.apply_zn_of_not_written hw _ f hzn
  exact ⟨hz, hn, w.apply_zn_of_not_written hw _ s.flags hzn⟩

/-- Settles O27: none of these operations writes memory, `SP` or a latch, and each register and flag has its own
writers. -/
theorem registerFormsFrame : Obligations.RegisterFormsFrame := by
  intro i s t hop h
  obtain ⟨w, hw, hflags⟩ := exec_flags h
  have hf := exec_frame h
  have hmem : t.mem = s.mem := (exec_memWrite h).eq_mem (Op.not_mem_of_mem hop (by decide))
  have hbrk : i.op ≠ .brk := fun hb => by simp [hb] at hop
  rw [hmem, hflags]
  exact ⟨fun _ => rfl, hf.sp (Op.not_mem_of_mem hop (by decide)), hf.a, hf.x, hf.y, w.apply_c hw _ _, w.apply_v hw _ _,
    fun hcarry => w.apply_zn hw _ _ (Op.not_mem_of_mem hcarry (by decide)), (w.apply_unused _ _).1,
    (w.apply_unused _ _).2.1, (w.apply_unused _ _).2.2, hf.controlUnchanged hbrk⟩

/-- Settles O28: the one write is at the store address, and a store writes no flag. -/
theorem storingFormsFrame : Obligations.StoringFormsFrame := by
  intro i s t hop h
  obtain ⟨w, hw, hflags⟩ := exec_flags h
  obtain ⟨target, htarget, hread⟩ := (exec_memWrite h).store_frame hop
  have hf := exec_frame h
  have hbrk : i.op ≠ .brk := fun hb => by simp [hb] at hop
  obtain ⟨hi, hd, hb⟩ := w.apply_unused s.config.loadIncFlags s.flags
  have hkeep : i.op ≠ .inc → i.op ∈ FlagWrite.keep.ops := fun hinc => by
    simp only [FlagWrite.ops, List.mem_cons, List.not_mem_nil, or_false] at hop ⊢
    tauto
  rw [hflags]
  refine ⟨by rw [htarget]; rfl, fun target' htarget' => ?_, hf.a (Op.not_mem_of_mem hop (by decide)),
    hf.x (Op.not_mem_of_mem hop (by decide)), hf.y (Op.not_mem_of_mem hop (by decide)),
    hf.sp (Op.not_mem_of_mem hop (by decide)), fun hinc => w.apply_eq_self hw _ _ (hkeep hinc),
    w.apply_c hw _ _ (Op.not_mem_of_mem hop (by decide)),
    w.apply_v hw _ _ (Op.not_mem_of_mem hop (by decide)), hi, hd, hb, hf.controlUnchanged hbrk⟩
  obtain rfl : target = target' := Option.some.inj (htarget.symm.trans htarget')
  exact hread

/-- Settles O29: JSR's pushes are the only writes of memory, and none of the three operations writes a flag or a
register other than `SP`. -/
theorem stackFormsFrame : Obligations.StackFormsFrame := by
  intro i s t hop h
  obtain ⟨w, hw, hflags⟩ := exec_flags h
  have hf := exec_frame h
  refine ⟨hf.a (Op.not_mem_of_mem hop (by decide)), hf.x (Op.not_mem_of_mem hop (by decide)),
    hf.y (Op.not_mem_of_mem hop (by decide)), ?flags, fun addr => (exec_memWrite h).stack_frame hop, ?brk,
    hf.controlUnchanged, hf.faultByte, hf.faultAddr, hf.exitRequest, hf.paused, hf.debugEnable, hf.debugInput,
    hf.config⟩
  case flags =>
    have hkeep : i.op ∈ FlagWrite.keep.ops := by
      simp only [FlagWrite.ops, List.mem_cons, List.not_mem_nil, or_false] at hop ⊢
      tauto
    rw [hflags, w.apply_eq_self hw _ _ hkeep]
  case brk =>
    intro hbrk
    obtain rfl := Instr.eq_brk_of_op hbrk
    exact ⟨hf.sp (by simp [hbrk]), exec_brk_pc h⟩

end Sys2Proof.Machine
end

section
/-! What a step does, in one inversion lemma, with the instruction the pass runs (40_dispatcher.md section 1). -/

namespace Sys2Proof.Machine

/-- The gate shows, and the pass runs, the instruction whose opcode byte is at `PC - 1` (R32). -/
theorem decodeFetched_eq_decodedAt (s : State) : s.decodeFetched = Claims.decodedAt (s.pc - 1#16) s := by
  rw [decodedAt_pc_sub_one]
  rfl

/-- The count a pass starts with is the one in the row of the byte at `PC - 1` (R95). -/
theorem fetchedCycles_eq_countAt (s : State) : s.fetchedCycles = Claims.countAt (s.pc - 1#16) s := rfl

/-- A fetched instruction comes from a row with a handler, of its own operation and mode, whose count is the one
started. -/
theorem fetched_row {s : State} {i : Instr} (hi : s.decodeFetched = .instr i) :
    ∃ r ∈ s.config.optab, r.wellFormed = true ∧ r.op = i.op ∧ r.mode = i.mode ∧ s.fetchedCycles = r.cyc := by
  rcases decodeBytesIn_cases s.config.optab (s.readByte (s.pc - 1#16)) (s.readByte s.pc) (s.readByte (s.pc + 1#16)) with
    ⟨r, j, hr, hj, hd⟩ | ⟨-, hd⟩
  · obtain rfl : j = i := Decoded.instr.inj (hd.symm.trans hi)
    obtain ⟨hop, hmode, -⟩ := Instr.ofParts_eq_some hj
    obtain ⟨hm, -, hw⟩ := lookupOpcode_eq_some hr
    exact ⟨r, hm, hw, hop.symm, hmode.symm, by rw [State.fetchedCycles, hr, Option.bind_some]⟩
  · cases hd.symm.trans hi

/-- The fetched row has no count exactly where the instruction is BRK (R74, R94). -/
theorem fetchedCycles_eq_none_iff {s : State} {i : Instr} (hi : s.decodeFetched = .instr i) :
    s.fetchedCycles = none ↔ i = .brk := by
  obtain ⟨r, -, hw, hop, -, hcyc⟩ := fetched_row hi
  rw [hcyc, (OpRow.wellFormed_parts hw).2.2, hop]
  exact ⟨Instr.eq_brk_of_op, fun h => h ▸ rfl⟩

/-- A fetched byte that is rejected is the byte at `PC - 1`, and has no row. -/
theorem fetched_unrecognized {s : State} {b : Byte} (hb : s.decodeFetched = .unrecognized b) :
    b = s.mem.read (s.pc - 1#16) ∧ lookupOpcode s.config.optab b = none := by
  obtain ⟨hnone, rfl⟩ := decodeBytesIn_eq_unrecognized_iff.1 hb
  exact ⟨rfl, hnone⟩

/-! From past the opcode byte: step 3 of the Dispatcher (R95). -/

theorem completePass_handled {s : State} {i : Instr} (hi : s.decodeFetched = .instr i) :
    ∃ t, completePass s = .next t ∧ Claims.handled i (s.pc - 1#16) s t := by
  simp only [completePass, hi, Claims.handled, ← fetchedCycles_eq_countAt]
  cases s.fetchedCycles with
  | none =>
    obtain ⟨t, ht⟩ := exec_next i s
    exact ⟨t, ht, ht⟩
  | some n =>
    obtain ⟨u, hu⟩ := exec_next i (s.setCycles ((n : Int) - 1))
    exact ⟨u.setCycles 0, by simp only [hu, endCountdown_of_next], u, hu, rfl⟩

theorem completePass_of_unrecognized {s : State} {b : Byte} (hb : s.decodeFetched = .unrecognized b) :
    completePass s = .next (raiseUnrecognizedOpcode b (s.pc - 1#16) s) := by
  simp only [completePass, hb]

/-- Where a pass goes on from past the opcode byte: after the fetch with the gate off, or where a step or exit command
releases the pause (R92, R237, R239). -/
inductive PassEntry (s : State) : State → Prop where
  | fetch (hhalted : s.halted = false) (hpaused : s.paused = false) (hgate : s.debugEnable = false) :
      PassEntry s s.fetchOpcode
  | step (rest : List DebugCommand) (hhalted : s.halted = false) (hpaused : s.paused = true)
      (hinput : s.debugInput = .step :: rest) : PassEntry s ((s.setDebugInput rest).setPaused false)
  | exit (rest : List DebugCommand) (hhalted : s.halted = false) (hpaused : s.paused = true)
      (hinput : s.debugInput = .exit :: rest) :
      PassEntry s (((s.setDebugInput rest).setExitRequest true).setPaused false)

/-- What one step does (R90 to R95): it changes nothing, reads a command at a pause, pauses after the fetch, ends the
run on an exit request, halts at a break, raises UnrecognizedOpcode, or runs an instruction, whose handler ends with the
countdown at 0. -/
inductive StepForm (s : State) : State → Prop where
  | stay : StepForm s s
  | command (rest : List DebugCommand) (hhalted : s.halted = false) (hpaused : s.paused = true) :
      StepForm s (s.setDebugInput rest)
  | pause (hhalted : s.halted = false) (hpaused : s.paused = false) (hgate : s.debugEnable = true) :
      StepForm s (s.fetchOpcode.setPaused true)
  | exitAtHead (hhalted : s.halted = false) (hpaused : s.paused = false) (hexit : s.exitRequest = true) :
      StepForm s (s.halt .debugExit)
  | exitAfterGate (u : State) (hu : PassEntry s u) (hexit : u.exitRequest = true) : StepForm s (u.halt .debugExit)
  | breakOpcode (u : State) (hu : PassEntry s u) (hi : u.decodeFetched = .instr .brk) :
      StepForm s (u.halt .breakOpcode)
  | unrecognized (u : State) (b : Byte) (hu : PassEntry s u) (hb : u.decodeFetched = .unrecognized b) :
      StepForm s (raiseUnrecognizedOpcode b (u.pc - 1#16) u)
  | run (u v : State) (i : Instr) (n : Int) (hu : PassEntry s u) (hi : u.decodeFetched = .instr i) (hop : i.op ≠ .brk)
      (hexec : exec i (u.setCycles n) = .next v) : StepForm s (v.setCycles 0)

/-- What follows the gate is one of the forms. -/
theorem PassEntry.stepForm {s u t : State} (hu : PassEntry s u) (h : afterGate u = .next t) : StepForm s t := by
  rcases afterGate_cases h with ⟨hexit, -, rfl⟩ | hpass
  · exact .exitAfterGate u hu hexit
  · rcases completePass_cases hpass with ⟨i, n, v, hi, hn, hexec, rfl⟩ | ⟨i, hi, hn, hexec⟩ | ⟨b, hb, rfl⟩
    · have hop : i.op ≠ .brk := fun hop => by
        rw [(fetchedCycles_eq_none_iff hi).2 (Instr.eq_brk_of_op hop)] at hn
        cases hn
      exact .run u v i _ hu hi hop hexec
    · obtain rfl := (fetchedCycles_eq_none_iff hi).1 hn
      obtain rfl := Host.Outcome.next.inj hexec
      exact .breakOpcode u hu hi
    · exact .unrecognized u b hu hb

theorem stepForm {s t : State} (h : step s = .next t) : StepForm s t := by
  rcases step_cases h with ⟨-, rfl⟩ | ⟨-, -, -, rfl⟩ | ⟨hh, hp, c, rest, -, -, -, rfl⟩ |
    ⟨hh, hp, c, rest, hin, hc, h⟩ | ⟨hh, hp, hx, -, rfl⟩ | ⟨hh, hp, hd, rfl⟩ | ⟨hh, hp, hd, h⟩
  · exact .stay
  · exact .stay
  · exact .command rest hh hp
  · rcases hc with rfl | rfl
    · exact (PassEntry.step rest hh hp hin).stepForm h
    · exact (PassEntry.exit rest hh hp hin).stepForm h
  · exact .exitAtHead hh hp hx
  · exact .pause hh hp hd
  · exact (PassEntry.fetch hh hp hd).stepForm h

/-! What the entry to a pass has in common with the state the step starts from. -/

/-- The instruction the pass runs is the step's current one: the one at `PC`, or the one held at the pause. -/
theorem PassEntry.decodeFetched {s u : State} (hu : PassEntry s u) : u.decodeFetched = Claims.current s := by
  cases hu with
  | fetch _ hpaused _ => simp [decodeFetched_fetchOpcode_eq_decodedAt, Claims.current, hpaused]
  | step _ _ hpaused _ | exit _ _ hpaused _ =>
    simp only [decodeFetched_eq_decodedAt, Claims.current, hpaused, if_true]
    rfl

theorem PassEntry.halted {s u : State} (hu : PassEntry s u) : s.halted = false := by
  cases hu with
  | fetch hhalted _ _ | step _ hhalted _ _ | exit _ hhalted _ _ => exact hhalted

/-- Up to the pass, a step has changed `PC`, the pause, the exit request and the operator's input alone. -/
structure PassEntry.Frame (s u : State) : Prop where
  a : u.a = s.a
  x : u.x = s.x
  y : u.y = s.y
  sp : u.sp = s.sp
  flags : u.flags = s.flags
  mem : u.mem = s.mem
  cyclesRemaining : u.cyclesRemaining = s.cyclesRemaining
  halted : u.halted = false
  haltReason : u.haltReason = s.haltReason
  faultByte : u.faultByte = s.faultByte
  faultAddr : u.faultAddr = s.faultAddr
  paused : u.paused = false
  debugEnable : u.debugEnable = s.debugEnable
  config : u.config = s.config
  exitRequest : s.exitRequest = true → u.exitRequest = true

theorem PassEntry.frame {s u : State} (hu : PassEntry s u) : PassEntry.Frame s u := by
  cases hu with
  | fetch hhalted hpaused _ => constructor <;> simp [hhalted, hpaused]
  | step _ hhalted _ _ => constructor <;> simp [hhalted]
  | exit _ hhalted _ _ => constructor <;> simp [hhalted]

end Sys2Proof.Machine
end

section
/-! Statements about every step (10_state.md, 60_exceptions.md). -/

namespace Sys2Proof.Machine

/-- No step writes `DEBUG_ENABLE` or a parameter, or clears `exit_request` (R29). -/
theorem StepForm.host_frame {s t : State} (h : StepForm s t) :
    t.debugEnable = s.debugEnable ∧ t.config = s.config ∧ (s.exitRequest = true → t.exitRequest = true) := by
  cases h with
  | stay | command | pause | exitAtHead => exact ⟨rfl, rfl, id⟩
  | exitAfterGate u hu | breakOpcode u hu | unrecognized u _ hu =>
    exact ⟨hu.frame.debugEnable, hu.frame.config, hu.frame.exitRequest⟩
  | run u v i n hu _ _ hexec =>
    have hf := exec_frame hexec
    exact ⟨hf.debugEnable.trans hu.frame.debugEnable, hf.config.trans hu.frame.config,
      fun hx => hf.exitRequest.trans (hu.frame.exitRequest hx)⟩

/-- Registers, stack pointer, flags and memory are as before. -/
def sameStorage (s t : State) : Prop :=
  t.a = s.a ∧ t.x = s.x ∧ t.y = s.y ∧ t.sp = s.sp ∧ t.flags = s.flags ∧ t.mem = s.mem

theorem PassEntry.sameStorage {s u : State} (hu : PassEntry s u) : sameStorage s u :=
  ⟨hu.frame.a, hu.frame.x, hu.frame.y, hu.frame.sp, hu.frame.flags, hu.frame.mem⟩

/-- A step that changes a register, the stack pointer, a flag or memory runs its current instruction. -/
theorem StepForm.sameStorage_or_run {s t : State} (h : StepForm s t) :
    sameStorage s t ∨ ∃ (u v : State) (i : Instr) (n : Int), PassEntry s u ∧ Claims.current s = .instr i ∧
      exec i (u.setCycles n) = .next v ∧ t = v.setCycles 0 := by
  cases h with
  | stay | command | pause | exitAtHead => exact .inl ⟨rfl, rfl, rfl, rfl, rfl, rfl⟩
  | exitAfterGate u hu | breakOpcode u hu | unrecognized u _ hu => exact .inl hu.sameStorage
  | run u v i n hu hi _ hexec => exact .inr ⟨u, v, i, n, hu, hu.decodeFetched ▸ hi, hexec, rfl⟩

/-- Settles O38: only the run of an instruction changes storage, and each operation leaves what it is no writer of. -/
theorem onlyTheListedOperationsWrite : Obligations.OnlyTheListedOperationsWrite := by
  intro s t h under
  obtain ⟨hdbg, hcfg, hexit⟩ := (stepForm h).host_frame
  rcases (stepForm h).sameStorage_or_run with ⟨ha, hx, hy, hsp, hflags, hmem⟩ | ⟨u, v, i, n, hu, hi, hexec, rfl⟩
  · rw [hflags, hmem]
    exact ⟨absurd ha, absurd hx, absurd hy, absurd hsp, fun ⟨_, hne⟩ => absurd rfl hne, absurd rfl, absurd rfl,
      fun hne => hne.elim (absurd rfl) (absurd rfl), ⟨rfl, rfl, rfl⟩, ⟨hdbg, hcfg⟩, hexit⟩
  · have hunder {ops : List Op} {kept : Prop} (hkept : i.op ∉ ops → kept) (hne : ¬kept) : under ops :=
      ⟨i, hi, by_contra fun hop => hne (hkept hop)⟩
    have hu := hu.frame
    have hf := exec_frame hexec
    obtain ⟨w, hw, hflags⟩ := exec_flags hexec
    rw [State.setCycles_config, State.setCycles_flags, hu.flags] at hflags
    rw [State.setCycles_flags, hflags]
    refine ⟨hunder fun hop => (hf.a hop).trans hu.a, hunder fun hop => (hf.x hop).trans hu.x,
      hunder fun hop => (hf.y hop).trans hu.y, hunder fun hop => (hf.sp hop).trans hu.sp, ?mem,
      hunder (w.apply_c hw _ _), hunder (w.apply_v hw _ _), ?zn, w.apply_unused _ _, ⟨hdbg, hcfg⟩, hexit⟩
    case mem =>
      rintro ⟨addr, hne⟩
      refine hunder (fun hop => ?_) hne
      rw [State.setCycles_mem, (exec_memWrite hexec).eq_mem hop, State.setCycles_mem, hu.mem]
    case zn => exact fun hne => hunder (w.apply_zn hw _ _) (not_and_or.2 hne)

end Sys2Proof.Machine
end

section
/-! The invariant of reachable states (10_state.md R34, 60_exceptions.md). -/

namespace Sys2Proof.Machine

/-- A running engine with the invariant has the reason RUNNING and empty report latches (R28, R210). -/
theorem State.Inv.running {s : State} (hs : s.Inv) (hh : s.halted = false) :
    s.haltReason = .running ∧ s.faultByte = none ∧ s.faultAddr = none := by
  have hreason : s.haltReason = .running := by
    by_contra hr
    simp [hs.haltedIffReason.2 hr] at hh
  have hbyte := hs.reportIffUnrecognized.1
  have haddr := hs.reportIffUnrecognized.2
  rw [hreason] at hbyte haddr
  exact ⟨hreason, by simpa using hbyte, by simpa using haddr⟩

/-- The invariant without the countdown's part: what holds while an instruction runs, its countdown under way (R230). -/
structure State.Running (s : State) : Prop where
  mem : s.mem.wf = true
  unusedFlags : s.flags.i = false ∧ s.flags.d = false ∧ s.flags.b = false
  halted : s.halted = false
  haltReason : s.haltReason = .running
  faultByte : s.faultByte = none
  faultAddr : s.faultAddr = none
  paused : s.paused = false
  exitRequest : s.exitRequest = true → s.debugEnable = true

theorem State.Running.inv {s : State} (hs : s.Running) (hc : s.cyclesRemaining = 0) : s.Inv where
  memoryCanonical := hs.mem
  unusedFlagsZero := hs.unusedFlags
  countdownZero := hc
  haltedIffReason := by simp [hs.halted, hs.haltReason]
  reportIffUnrecognized := by simp [hs.faultByte, hs.faultAddr, hs.haltReason]
  reportedByteHasNoRow := by simp [hs.faultByte]
  debugLatchesNeedEnable := ⟨hs.exitRequest, by simp [hs.paused]⟩
  haltedNotPaused := by simp [hs.halted]

/-- Halting for another reason than UnrecognizedOpcode leaves the report latches absent (R211, R213). -/
theorem State.Running.inv_halt {s : State} (hs : s.Running) (hc : s.cyclesRemaining = 0) {r : HaltReason}
    (hr : r ≠ .running) (hu : r ≠ .unrecognizedOpcode) : (s.halt r).Inv where
  memoryCanonical := hs.mem
  unusedFlagsZero := hs.unusedFlags
  countdownZero := hc
  haltedIffReason := by simp [hr]
  reportIffUnrecognized := by simp [hs.faultByte, hs.faultAddr, hu]
  reportedByteHasNoRow := by simp [hs.faultByte]
  debugLatchesNeedEnable := ⟨hs.exitRequest, by simp [hs.paused]⟩
  haltedNotPaused := by simp [hs.paused]

/-- The UnrecognizedOpcode halt reports a byte with no row (R212). -/
theorem State.Running.inv_raise {s : State} (hs : s.Running) (hc : s.cyclesRemaining = 0) {b : Byte}
    (hb : lookupOpcode s.config.optab b = none) (addr : Word) : (raiseUnrecognizedOpcode b addr s).Inv where
  memoryCanonical := hs.mem
  unusedFlagsZero := hs.unusedFlags
  countdownZero := hc
  haltedIffReason := by simp [raiseUnrecognizedOpcode]
  reportIffUnrecognized := by simp [raiseUnrecognizedOpcode]
  reportedByteHasNoRow := by simp [raiseUnrecognizedOpcode, hb]
  debugLatchesNeedEnable := ⟨hs.exitRequest, by simp [raiseUnrecognizedOpcode, hs.paused]⟩
  haltedNotPaused := by simp [raiseUnrecognizedOpcode, hs.paused]

/-- An instruction other than BRK keeps the running engine's part of the invariant. -/
theorem State.Running.of_exec {s t : State} {i : Instr} (hs : s.Running) (hop : i.op ≠ .brk)
    (h : exec i s = .next t) : t.Running := by
  have hf := exec_frame h
  obtain ⟨w, -, hflags⟩ := exec_flags h
  obtain ⟨hi, hd, hb⟩ := w.apply_unused s.config.loadIncFlags s.flags
  rw [← hflags] at hi hd hb
  obtain ⟨hi', hd', hb'⟩ := hs.unusedFlags
  exact {
    mem := (exec_memWrite h).wf hs.mem
    unusedFlags := ⟨hi.trans hi', hd.trans hd', hb.trans hb'⟩
    halted := (hf.halted hop).trans hs.halted
    haltReason := (hf.haltReason hop).trans hs.haltReason
    faultByte := hf.faultByte.trans hs.faultByte
    faultAddr := hf.faultAddr.trans hs.faultAddr
    paused := hf.paused.trans hs.paused
    exitRequest := by rw [hf.exitRequest, hf.debugEnable]; exact hs.exitRequest }

/-- Setting the countdown keeps the running engine's part of the invariant. -/
theorem State.Running.setCycles {s : State} (hs : s.Running) (n : Int) : (s.setCycles n).Running :=
  ⟨hs.mem, hs.unusedFlags, hs.halted, hs.haltReason, hs.faultByte, hs.faultAddr, hs.paused, hs.exitRequest⟩

/-- At the loop head the invariant is the running engine's. -/
theorem State.Inv.running_of_not_paused {s : State} (hs : s.Inv) (hh : s.halted = false) (hp : s.paused = false) :
    s.Running := by
  obtain ⟨hreason, hbyte, haddr⟩ := hs.running hh
  exact ⟨hs.memoryCanonical, hs.unusedFlagsZero, hh, hreason, hbyte, haddr, hp, hs.debugLatchesNeedEnable.1⟩

/-- An exit is asked for only at a pause, so with the gate on (R239). -/
theorem PassEntry.exitRequest_needs_enable {s u : State} (hu : PassEntry s u) (hs : s.Inv) :
    u.exitRequest = true → u.debugEnable = true := by
  cases hu with
  | fetch | step => exact hs.debugLatchesNeedEnable.1
  | exit _ _ hp _ => exact fun _ => hs.debugLatchesNeedEnable.2 hp

/-- A pass goes on from a running engine with the invariant. -/
theorem PassEntry.running {s u : State} (hu : PassEntry s u) (hs : s.Inv) : u.Running ∧ u.cyclesRemaining = 0 := by
  obtain ⟨hreason, hbyte, haddr⟩ := hs.running hu.halted
  have hf := hu.frame
  refine ⟨⟨?_, ?_, hf.halted, hf.haltReason.trans hreason, hf.faultByte.trans hbyte, hf.faultAddr.trans haddr,
    hf.paused, hu.exitRequest_needs_enable hs⟩, hf.cyclesRemaining.trans hs.countdownZero⟩
  · rw [hf.mem]
    exact hs.memoryCanonical
  · rw [hf.flags]
    exact hs.unusedFlagsZero

end Sys2Proof.Machine
end

section
/-! The invariant is inductive. -/

namespace Sys2Proof.Machine

/-- Settles O42: each form a step can have keeps the invariant. -/
theorem stepKeepsTheInvariant : Obligations.StepKeepsTheInvariant := by
  intro s t hs h
  cases stepForm h with
  | stay => exact hs
  | command rest hh hp =>
    exact ⟨hs.memoryCanonical, hs.unusedFlagsZero, hs.countdownZero, hs.haltedIffReason, hs.reportIffUnrecognized,
      hs.reportedByteHasNoRow, hs.debugLatchesNeedEnable, hs.haltedNotPaused⟩
  | pause hh hp hgate =>
    exact ⟨hs.memoryCanonical, hs.unusedFlagsZero, hs.countdownZero, hs.haltedIffReason, hs.reportIffUnrecognized,
      hs.reportedByteHasNoRow, ⟨hs.debugLatchesNeedEnable.1, fun _ => hgate⟩, fun hhalted => by simp [hh] at hhalted⟩
  | exitAtHead hh hp hx =>
    exact (hs.running_of_not_paused hh hp).inv_halt hs.countdownZero nofun nofun
  | exitAfterGate u hu hx =>
    obtain ⟨hr, hc⟩ := hu.running hs
    exact hr.inv_halt hc nofun nofun
  | breakOpcode u hu hi =>
    obtain ⟨hr, hc⟩ := hu.running hs
    exact hr.inv_halt hc nofun nofun
  | unrecognized u b hu hb =>
    obtain ⟨hr, hc⟩ := hu.running hs
    exact hr.inv_raise hc (fetched_unrecognized hb).2 _
  | run u v i n hu hi hop hexec =>
    obtain ⟨hr, -⟩ := hu.running hs
    exact (((hr.setCycles n).of_exec hop hexec).setCycles 0).inv rfl

end Sys2Proof.Machine
end

section
/-! Steps computed, from where the engine stands (40_dispatcher.md section 1, 60_exceptions.md section 5). -/

namespace Sys2Proof.Machine

theorem step_of_halted {s : State} (hh : s.halted = true) : step s = .next s := by
  simp [step, hh]

theorem step_eq_fromPause {s : State} (hh : s.halted = false) (hp : s.paused = true) : step s = fromPause s := by
  simp [step, hh, hp]

theorem step_eq_fromLoopHead {s : State} (hh : s.halted = false) (hp : s.paused = false) :
    step s = fromLoopHead s := by
  simp [step, hh, hp]

/-- A command that neither steps nor exits leaves the latches alone (R238, R240). -/
theorem State.obey_of_inspection {c : DebugCommand} (hstep : c ≠ .step) (hexit : c ≠ .exit) (s : State) :
    s.obey c = s := by
  cases c with
  | step => exact absurd rfl hstep
  | exit => exact absurd rfl hexit
  | help | dumpStack | dumpMemory | malformed => rfl

theorem afterGate_of_no_exit {s : State} (hx : s.exitRequest = false) : afterGate s = completePass s := by
  simp [afterGate, hx]

theorem afterGate_of_loopHead {s : State} (hsample : s.config.exitSample = .loopHead) :
    afterGate s = completePass s := by
  simp [afterGate, hsample]

theorem afterGate_of_exit {s : State} (hx : s.exitRequest = true) (hsample : s.config.exitSample = .afterGate) :
    afterGate s = .next (s.halt .debugExit) := by
  simp [afterGate, hx, hsample]

section
variable {s : State} {rest : List DebugCommand} (hh : s.halted = false) (hp : s.paused = true)
include hh hp

theorem step_of_no_command (hin : s.debugInput = []) : step s = .next s := by
  rw [step_eq_fromPause hh hp, fromPause, hin]

theorem step_of_inspection {c : DebugCommand} (hin : s.debugInput = c :: rest) (hstep : c ≠ .step) (hexit : c ≠ .exit) :
    step s = .next (s.setDebugInput rest) := by
  simp [step_eq_fromPause hh hp, fromPause, hin, State.obey_of_inspection hstep hexit, hp]

/-- A step command releases the pause, and the pass goes on (R237). -/
theorem step_of_step_command (hin : s.debugInput = .step :: rest) (hx : s.exitRequest = false) :
    step s = completePass ((s.setDebugInput rest).setPaused false) := by
  rw [← afterGate_of_no_exit (show ((s.setDebugInput rest).setPaused false).exitRequest = false from hx)]
  simp [step_eq_fromPause hh hp, fromPause, hin, State.obey]

/-- An exit command also sets `exit_request`, which is seen after the gate or at the next loop head (R239). -/
theorem step_of_exit_command (hin : s.debugInput = .exit :: rest) :
    step s = afterGate (((s.setDebugInput rest).setExitRequest true).setPaused false) := by
  simp [step_eq_fromPause hh hp, fromPause, hin, State.obey]

theorem step_of_exit_command_of_loopHead (hin : s.debugInput = .exit :: rest)
    (hsample : s.config.exitSample = .loopHead) :
    step s = completePass (((s.setDebugInput rest).setExitRequest true).setPaused false) :=
  (step_of_exit_command hh hp hin).trans (afterGate_of_loopHead hsample)

theorem step_of_exit_command_of_afterGate (hin : s.debugInput = .exit :: rest)
    (hsample : s.config.exitSample = .afterGate) :
    step s = .next ((((s.setDebugInput rest).setExitRequest true).setPaused false).halt .debugExit) :=
  (step_of_exit_command hh hp hin).trans (afterGate_of_exit rfl hsample)

end

theorem step_of_gate {s : State} (hs : s.atLoopHead) (hgate : s.debugEnable = true) (hx : s.exitRequest = false) :
    step s = .next (s.fetchOpcode.setPaused true) := by
  simp [step_eq_fromLoopHead hs.1 hs.2, fromLoopHead, hx, hgate]

/-! No step fails part-way (R97). -/

theorem completePass_next (s : State) : ∃ t, completePass s = .next t := by
  cases hd : s.decodeFetched with
  | instr i =>
    obtain ⟨t, ht, -⟩ := completePass_handled hd
    exact ⟨t, ht⟩
  | unrecognized b => exact ⟨_, completePass_of_unrecognized hd⟩

theorem afterGate_next (s : State) : ∃ t, afterGate s = .next t := by
  unfold afterGate
  split
  · exact ⟨_, rfl⟩
  · exact completePass_next s

theorem fromLoopHead_next (s : State) : ∃ t, fromLoopHead s = .next t := by
  unfold fromLoopHead
  split
  · exact ⟨_, rfl⟩
  · split
    · exact ⟨_, rfl⟩
    · exact afterGate_next _

theorem fromPause_next (s : State) : ∃ t, fromPause s = .next t := by
  unfold fromPause
  split
  · exact ⟨_, rfl⟩
  · dsimp only
    split
    · exact ⟨_, rfl⟩
    · exact afterGate_next _

theorem step_next (s : State) : ∃ t, step s = .next t := by
  unfold step
  split
  · exact ⟨_, rfl⟩
  · split
    · exact fromPause_next s
    · exact fromLoopHead_next s

/-- Settles O33: each part of a pass answers a next state, and so does each operation behind `exec`. -/
theorem stepAlwaysAnswersNext : Obligations.StepAlwaysAnswersNext := ⟨step_next, exec_next⟩

/-- A state that steps to itself is the only one it reaches. -/
theorem eq_of_reaches_of_step_self {s t : State} (hself : step s = .next s) {k : Nat} (h : reaches k s t) : t = s := by
  induction k with
  | zero => exact Eq.symm h
  | succ k ih =>
    obtain ⟨u, hu, hreach⟩ := h
    obtain rfl : s = u := Host.Outcome.next.inj (hself.symm.trans hu)
    exact ih hreach

/-- Settles O34: a halted engine steps to itself. -/
theorem haltedEngineIsFinal : Obligations.HaltedEngineIsFinal :=
  fun _ _ _ hh h => eq_of_reaches_of_step_self (step_of_halted hh) h

/-- Settles O48: a pause without a command steps to itself. -/
theorem pauseHoldsWithoutACommand : Obligations.PauseHoldsWithoutACommand := by
  intro k s t hh hp hin h
  obtain rfl := eq_of_reaches_of_step_self (step_of_no_command hh hp hin) h
  exact ⟨rfl, hh⟩

end Sys2Proof.Machine
end

section
/-! The end of a run (60_exceptions.md section 1). -/

namespace Sys2Proof.Machine

/-- What a step can do to the halt latches: nothing, or one of the three ends, each with its own reason (R210). -/
theorem StepForm.halt_cases {s t : State} (h : StepForm s t) :
    (t.halted = s.halted ∧ t.haltReason = s.haltReason) ∨
    (t.haltReason = .breakOpcode ∧ Claims.current s = .instr .brk) ∨
    (t.haltReason = .unrecognizedOpcode ∧ ∃ b, Claims.current s = .unrecognized b ∧
      lookupOpcode s.config.optab b = none ∧ b = s.mem.read (t.pc - 1#16) ∧
      t.faultByte = some b ∧ t.faultAddr = some (t.pc - 1#16) ∧ t.halted = true) ∨
    (t.haltReason = .debugExit ∧ t.exitRequest = true) := by
  cases h with
  | stay | command | pause => exact .inl ⟨rfl, rfl⟩
  | exitAtHead _ _ hx => exact .inr (.inr (.inr ⟨rfl, hx⟩))
  | exitAfterGate u _ hx => exact .inr (.inr (.inr ⟨rfl, hx⟩))
  | breakOpcode u hu hi => exact .inr (.inl ⟨rfl, hu.decodeFetched ▸ hi⟩)
  | unrecognized u b hu hb =>
    obtain ⟨hbyte, hnone⟩ := fetched_unrecognized hb
    rw [hu.frame.mem] at hbyte
    rw [hu.frame.config] at hnone
    exact .inr (.inr (.inl ⟨rfl, b, hu.decodeFetched ▸ hb, hnone, hbyte, rfl, rfl, rfl⟩))
  | run u v i n hu _ hop hexec =>
    have hf := exec_frame hexec
    exact .inl ⟨(hf.halted hop).trans (hu.frame.halted.trans hu.halted.symm),
      (hf.haltReason hop).trans hu.frame.haltReason⟩

/-- Settles O35: of the forms of a step only a break, an unrecognised byte and an exit change the halt latches. -/
theorem runEndsInThreeWays : Obligations.RunEndsInThreeWays := by
  refine ⟨fun s t h hrunning hended => ?_, by decide⟩
  rcases (stepForm h).halt_cases with ⟨hsame, -⟩ | hbreak | ⟨hreason, b, hcur, -, -, hbyte, haddr, -⟩ | hexit
  · cases hrunning.symm.trans (hsame.symm.trans hended)
  · exact .inl hbreak
  · exact .inr (.inl ⟨hreason, b, hcur, hbyte, haddr⟩)
  · exact .inr (.inr hexit)

theorem State.fetchOpcode_pc_sub_one (s : State) : s.fetchOpcode.pc - 1#16 = s.pc := by
  rw [State.fetchOpcode_pc]
  bv_omega

/-- Settles O31: an unrecognised byte at the loop head is raised from past it, and only raising sets that reason. -/
theorem unrecognizedOpcodeHalts : Obligations.UnrecognizedOpcodeHalts := by
  refine ⟨fun s b hr hb => ?_, fun s t h hbefore hafter => ?_⟩
  · rw [← decodeFetched_fetchOpcode_eq_decodedAt] at hb
    refine ⟨(fetched_unrecognized hb).1.trans ?_, ?_⟩
    · rw [State.fetchOpcode_pc_sub_one, State.fetchOpcode_mem]
    · rw [step_eq_completePass_of_ready hr, completePass_of_unrecognized hb, State.fetchOpcode_pc_sub_one]
      rfl
  · rcases (stepForm h).halt_cases with ⟨-, hsame⟩ | ⟨hreason, -⟩ | ⟨-, b, -, hb⟩ | ⟨hreason, -⟩
    · exact absurd (hsame.symm.trans hafter) hbefore
    · cases hreason.symm.trans hafter
    · exact ⟨b, hb⟩
    · cases hreason.symm.trans hafter

end Sys2Proof.Machine
end

section
/-! Running an instruction: the handler and its countdown (40_dispatcher.md section 1, 70_reset_and_hazards.md section
4). -/

namespace Sys2Proof.Machine

/-- Settles O30: with the gate off the step is the end of the pass from past the opcode byte. -/
theorem stepRunsTheDecodedInstruction : Obligations.StepRunsTheDecodedInstruction := by
  intro s i hr hi
  rw [← decodeFetched_fetchOpcode_eq_decodedAt] at hi
  obtain ⟨t, ht, hhandled⟩ := completePass_handled hi
  rw [State.fetchOpcode_pc_sub_one] at hhandled
  exact ⟨i.wellFormed_true, t, (step_eq_completePass_of_ready hr).trans ht, hhandled⟩

/-! What the events of each operation use up (R271). -/

theorem loadRegister_cyclesRemaining {r : Reg} {o : Operand} {s t : State} (h : loadRegister r o s = .next t) :
    t.cyclesRemaining = s.cyclesRemaining - o.events := by
  rw [loadRegister_eq] at h
  obtain rfl := Host.Outcome.next.inj h
  simp

theorem storeRegister_cyclesRemaining {r : Reg} {m : MemOperand} {s t : State} (h : storeRegister r m s = .next t) :
    t.cyclesRemaining = s.cyclesRemaining - ((m.operandBytes + m.extraEvents .write + 1 : Nat) : Int) := by
  rw [storeRegister_eq] at h
  obtain rfl := Host.Outcome.next.inj h
  push_cast
  ring

theorem addWithCarry_cyclesRemaining {o : Operand} {s t : State} (h : addWithCarry o s = .next t) :
    t.cyclesRemaining = s.cyclesRemaining - o.events := by
  rw [addWithCarry_eq] at h
  obtain rfl := Host.Outcome.next.inj h
  rfl

theorem subtractWithCarry_cyclesRemaining {o : Operand} {s t : State} (h : subtractWithCarry o s = .next t) :
    t.cyclesRemaining = s.cyclesRemaining - o.events := by
  rw [subtractWithCarry_eq] at h
  obtain rfl := Host.Outcome.next.inj h
  rfl

theorem incrementMemory_cyclesRemaining {m : MemOperand} {s t : State} (h : incrementMemory m s = .next t) :
    t.cyclesRemaining = s.cyclesRemaining - ((m.operandBytes + m.extraEvents .modify + 3 : Nat) : Int) := by
  rw [incrementMemory_eq] at h
  obtain rfl := Host.Outcome.next.inj h
  push_cast
  ring

/-- Every instruction but BRK uses up one less than the count R270 lists for its operation and mode: the opcode fetch
consumes no cycle (R92). -/
theorem exec_cyclesRemaining {i : Instr} {s t : State} (h : exec i s = .next t) (hi : i ≠ .brk) :
    ∃ n : Nat, Claims.cyclesByMode i.op i.mode = some (n + 1) ∧ t.cyclesRemaining = s.cyclesRemaining - n := by
  cases i with
  | ldaImm _ | ldaZp _ | ldaZpx _ | ldaAbs _ | ldaAbx _ | ldaAby _ | ldaIzx _ | ldaIzy _
  | ldxImm _ | ldxZp _ | ldxZpy _ | ldxAbs _ | ldxAby _
  | ldyImm _ | ldyZp _ | ldyZpx _ | ldyAbs _ | ldyAbx _ => exact ⟨_, rfl, loadRegister_cyclesRemaining h⟩
  | staZp _ | staZpx _ | staAbs _ | staAbx _ | staAby _ | staIzx _ | staIzy _
  | stxZp _ | stxZpy _ | stxAbs _ | styZp _ | styZpx _ | styAbs _ => exact ⟨_, rfl, storeRegister_cyclesRemaining h⟩
  | adcImm _ | adcZp _ | adcZpx _ | adcAbs _ | adcAbx _ | adcAby _ | adcIzx _ | adcIzy _ =>
    exact ⟨_, rfl, addWithCarry_cyclesRemaining h⟩
  | sbcImm _ | sbcZp _ | sbcZpx _ | sbcAbs _ | sbcAbx _ | sbcAby _ | sbcIzx _ | sbcIzy _ =>
    exact ⟨_, rfl, subtractWithCarry_cyclesRemaining h⟩
  | incZp _ | incZpx _ | incAbs _ | incAbx _ => exact ⟨_, rfl, incrementMemory_cyclesRemaining h⟩
  | inx | iny | sec | clc =>
    obtain rfl := Host.Outcome.next.inj h
    exact ⟨1, rfl, rfl⟩
  | jsr _ =>
    rw [exec_jsr_eq] at h
    obtain rfl := Host.Outcome.next.inj h
    exact ⟨5, rfl, show s.cyclesRemaining - 2 - 1 - 1 - 1 = s.cyclesRemaining - 5 by ring⟩
  | rts =>
    rw [exec_rts_eq] at h
    obtain rfl := Host.Outcome.next.inj h
    exact ⟨5, rfl, show s.cyclesRemaining - 1 - 1 - 3 = s.cyclesRemaining - 5 by ring⟩
  | brk => exact absurd rfl hi

/-- From the start R270's count gives, the countdown is used up exactly. -/
theorem exec_countdown_zero {i : Instr} {s t : State} (hi : i ≠ .brk)
    (hstart : s.cyclesRemaining = Claims.started i s Claims.cyclesByMode) (h : exec i s = .next t) :
    t.cyclesRemaining = 0 := by
  obtain ⟨n, hn, hleft⟩ := exec_cyclesRemaining h hi
  rw [Claims.started, hn] at hstart
  push_cast at hstart
  omega

/-- A pass that runs an instruction other than BRK ends with the countdown at 0, by any table (R95). -/
theorem completePass_cyclesRemaining {s t : State} {i : Instr} (hi : s.decodeFetched = .instr i) (hne : i ≠ .brk)
    (h : completePass s = .next t) : t.cyclesRemaining = 0 := by
  rcases completePass_cases h with ⟨_, _, u, -, -, -, rfl⟩ | ⟨j, hj, hnone, -⟩ | ⟨b, hb, -⟩
  · rfl
  · exact absurd ((fetchedCycles_eq_none_iff hi).1 hnone) hne
  · cases hb.symm.trans hi

/-- With the default table, whose counts are R270's, setting the countdown to 0 at the handler's end changes nothing. -/
theorem completePass_of_default_table {s : State} {i : Instr} (hi : s.decodeFetched = .instr i)
    (htable : s.config.optab = defaultOptab) :
    completePass s = exec i (s.setCycles (Claims.started i s Claims.cyclesByMode)) := by
  obtain ⟨r, hm, -, hop, hmode, hcyc⟩ := fetched_row hi
  rw [htable] at hm
  rw [cyc_eq_cyclesByMode_of_mem_defaultOptab r hm, hop, hmode] at hcyc
  simp only [completePass, hi, Claims.started, hcyc]
  cases hn : Claims.cyclesByMode i.op i.mode with
  | none => rfl
  | some n =>
    have hne : i ≠ .brk := fun hbrk => by
      rw [(fetchedCycles_eq_none_iff hi).2 hbrk, hn] at hcyc
      cases hcyc
    obtain ⟨t, ht⟩ := exec_next i (s.setCycles ((n : Int) - 1))
    have hzero : t.cyclesRemaining = 0 := exec_countdown_zero hne (by simp only [Claims.started, hn]; rfl) ht
    calc endCountdown (exec i (s.setCycles ((n : Int) - 1)))
      _ = .next (t.setCycles 0) := by rw [ht, endCountdown_of_next]
      _ = .next t := by rw [← hzero]; rfl
      _ = exec i (s.setCycles ((n : Int) - 1)) := ht.symm

/-- Settles O36: the events use up the listed count, a table of other counts is corrected at the handler's end, and with
the default table there is nothing to correct. -/
theorem passEndsWithCountdownZero : Obligations.PassEndsWithCountdownZero := by
  refine ⟨fun s t i hne hstart h => exec_countdown_zero hne hstart h, fun s t i hr hi hne h => ?_,
    fun s i hr htable hi => ?_⟩
  · rw [← decodeFetched_fetchOpcode_eq_decodedAt] at hi
    exact completePass_cyclesRemaining hi hne (completePass_of_ready hr h)
  · rw [← decodeFetched_fetchOpcode_eq_decodedAt] at hi
    exact (step_eq_completePass_of_ready hr).trans (completePass_of_default_table hi htable)

end Sys2Proof.Machine
end

section
/-! The countdown and `DEBUG_ENABLE` decide nothing of what a pass does (10_state.md section 5). -/

namespace Sys2Proof.Machine

/-- An instruction reads neither the countdown nor `DEBUG_ENABLE`. -/
theorem exec_with_cycles_and_gate {i : Instr} {s t : State} (h : exec i s = .next t) (n : Int) (dbg : Bool) :
    ∃ m, exec i { s with cyclesRemaining := n, debugEnable := dbg } =
      .next { t with cyclesRemaining := m, debugEnable := dbg } ∧ (n = s.cyclesRemaining → m = t.cyclesRemaining) := by
  obtain ⟨w, left, -, ⟨hflags, hcycles, -⟩, hexec⟩ := exec_variants h
  refine ⟨left n, (hexec s.flags n dbg rfl).trans (by rw [hflags]), fun hn => by rw [hcycles, hn]⟩

/-- Nor does the end of a pass. -/
theorem completePass_with_cycles_and_gate {s t : State} (h : completePass s = .next t) (n : Int) (dbg : Bool) :
    ∃ m, completePass { s with cyclesRemaining := n, debugEnable := dbg } =
      .next { t with cyclesRemaining := m, debugEnable := dbg } ∧ (n = s.cyclesRemaining → m = t.cyclesRemaining) := by
  have hdecode : State.decodeFetched { s with cyclesRemaining := n, debugEnable := dbg } = s.decodeFetched := rfl
  have hcount : State.fetchedCycles { s with cyclesRemaining := n, debugEnable := dbg } = s.fetchedCycles := rfl
  rcases completePass_cases h with ⟨i, k, u, hi, hk, hexec, rfl⟩ | ⟨i, hi, hk, hexec⟩ | ⟨b, hb, rfl⟩
  · obtain ⟨m, hm, -⟩ := exec_with_cycles_and_gate hexec ((k : Int) - 1) dbg
    refine ⟨0, ?_, fun _ => rfl⟩
    simp only [completePass, hdecode, hcount, hi, hk]
    exact congrArg endCountdown hm
  · obtain ⟨m, hm, hsame⟩ := exec_with_cycles_and_gate hexec n dbg
    refine ⟨m, ?_, hsame⟩
    simp only [completePass, hdecode, hcount, hi, hk]
    exact hm
  · exact ⟨n, by simp only [completePass, hdecode, hb]; rfl, id⟩

theorem completePass_setCycles {s t : State} (h : completePass s = .next t) (n : Int) :
    ∃ m, completePass (s.setCycles n) = .next (t.setCycles m) := by
  obtain ⟨_, hself, -⟩ := completePass_with_cycles_and_gate h s.cyclesRemaining s.debugEnable
  have hgate : t.debugEnable = s.debugEnable :=
    (congrArg State.debugEnable (Host.Outcome.next.inj (h.symm.trans hself))).trans rfl
  obtain ⟨m, hm, -⟩ := completePass_with_cycles_and_gate h n s.debugEnable
  exact ⟨m, hm.trans (by rw [← hgate]; rfl)⟩

theorem completePass_with_gate {s t : State} (h : completePass s = .next t) (dbg : Bool) :
    completePass { s with debugEnable := dbg } = .next { t with debugEnable := dbg } := by
  obtain ⟨m, hm, hsame⟩ := completePass_with_cycles_and_gate h s.cyclesRemaining dbg
  rw [hsame rfl] at hm
  exact hm

theorem afterGate_setCycles {s t : State} (h : afterGate s = .next t) (n : Int) :
    ∃ m, afterGate (s.setCycles n) = .next (t.setCycles m) := by
  unfold afterGate at h ⊢
  rw [State.setCycles_exitRequest, State.setCycles_config]
  split_ifs at h ⊢
  · obtain rfl := Host.Outcome.next.inj h
    exact ⟨n, rfl⟩
  · exact completePass_setCycles h n

theorem fromLoopHead_setCycles {s t : State} (h : fromLoopHead s = .next t) (n : Int) :
    ∃ m, fromLoopHead (s.setCycles n) = .next (t.setCycles m) := by
  unfold fromLoopHead at h ⊢
  rw [State.setCycles_exitRequest, State.setCycles_config, State.setCycles_debugEnable]
  split_ifs at h ⊢
  · obtain rfl := Host.Outcome.next.inj h
    exact ⟨n, rfl⟩
  · obtain rfl := Host.Outcome.next.inj h
    exact ⟨n, rfl⟩
  · exact afterGate_setCycles h n

theorem State.setCycles_obey (s : State) (n : Int) (c : DebugCommand) :
    (s.setCycles n).obey c = (s.obey c).setCycles n := by
  cases c <;> rfl

theorem fromPause_setCycles {s t : State} (h : fromPause s = .next t) (n : Int) :
    ∃ m, fromPause (s.setCycles n) = .next (t.setCycles m) := by
  unfold fromPause at h ⊢
  rw [State.setCycles_debugInput]
  cases hin : s.debugInput with
  | nil =>
    simp only [hin] at h
    obtain rfl := Host.Outcome.next.inj h
    exact ⟨n, rfl⟩
  | cons c rest =>
    have hobey : ((s.setCycles n).setDebugInput rest).obey c = ((s.setDebugInput rest).obey c).setCycles n :=
      State.setCycles_obey (s.setDebugInput rest) n c
    simp only [hin] at h
    simp only [hobey, State.setCycles_paused]
    split_ifs at h ⊢
    · obtain rfl := Host.Outcome.next.inj h
      exact ⟨n, rfl⟩
    · exact afterGate_setCycles h n

/-- Settles O40: each part of a pass goes the same way whatever the countdown, down to the instruction, which does not
read it. -/
theorem countdownIsNotRead : Obligations.CountdownIsNotRead := by
  intro s t n h
  change ∃ m, step (s.setCycles n) = .next (t.setCycles m)
  unfold step at h ⊢
  rw [State.setCycles_halted, State.setCycles_paused]
  split_ifs at h ⊢
  · obtain rfl := Host.Outcome.next.inj h
    exact ⟨n, rfl⟩
  · exact fromPause_setCycles h n
  · exact fromLoopHead_setCycles h n

end Sys2Proof.Machine
end

section
/-! The debug gate (60_exceptions.md section 5). -/

namespace Sys2Proof.Machine

/-- Settles O45: the pause keeps everything but `PC` and `paused`, and shows the byte just fetched. -/
theorem gatePausesAfterTheFetch : Obligations.GatePausesAfterTheFetch := by
  intro s hs hgate hx
  refine ⟨step_of_gate hs hgate hx, ?_⟩
  have hpc := s.fetchOpcode_pc_sub_one
  rw [State.fetchOpcode_pc] at hpc
  simp only [pauseView, decodeFetched_eq_decodedAt, State.readByte, hpc]
  rfl

/-- A dump of 256 bytes from 0x0100 on is the stack page (R238). -/
theorem memoryRange_stack (s : State) : memoryRange s 256 511 =
    (List.range 256).map fun k => s.mem.read (BitVec.ofNat 16 (0x0100 + k)) := rfl

theorem debugResponse_dumpMemory_of_malformed {first last : Nat} (h : 65535 < first ∨ 65535 < last) (s : State) :
    debugResponse (.dumpMemory first last) s = .malformedDebugCommand := by
  have hbad : (DebugCommand.dumpMemory first last).wellFormed = false := by
    simp only [DebugCommand.wellFormed, Bool.and_eq_false_iff, decide_eq_false_iff_not]
    omega
  simp [debugResponse, hbad]

theorem debugResponse_dumpMemory {first last : Nat} (hfirst : first ≤ 65535) (hlast : last ≤ 65535) (s : State) :
    debugResponse (.dumpMemory first last) s = .bytes (memoryRange s first last) := by
  simp [debugResponse, DebugCommand.wellFormed, hfirst, hlast]

/-- Settles O46: an inspecting or malformed command is read and obeyed without effect, and each has its answer. -/
theorem inspectionChangesNothing : Obligations.InspectionChangesNothing := by
  intro s c rest hh hp hin hstep hexit
  refine ⟨step_of_inspection hh hp hin hstep hexit, ?help, ?dumpStack, ?malformed, ?dumpMemory⟩
  case help =>
    rintro rfl
    rfl
  case dumpStack =>
    rintro rfl
    exact congrArg DebugResponse.bytes (memoryRange_stack s)
  case malformed =>
    rintro rfl
    rfl
  case dumpMemory =>
    rintro first last rfl hbad
    exact debugResponse_dumpMemory_of_malformed hbad s

/-- Settles O47: the dumped range has `last + 1 - first` addresses, the `k`-th being `first + k`. -/
theorem dumpMemoryIsInclusive : Obligations.DumpMemoryIsInclusive := by
  intro s first last hfirst hlast
  refine ⟨_, debugResponse_dumpMemory hfirst hlast s, by simp [memoryRange], fun k hk => ?_⟩
  have hrange : k < last + 1 - first := by omega
  simp [memoryRange, State.readByte, List.getElem?_range hrange]

/-! Releasing the pause. -/

/-- A handler runs the instruction, but for the countdown before and after, so it changes what the instruction does. -/
theorem handled_frame {i : Instr} {addr : Word} {s t : State} (h : Claims.handled i addr s t) : ExecFrame i s t := by
  unfold Claims.handled at h
  split at h
  · obtain ⟨u, hu, rfl⟩ := h
    have hf := exec_frame hu
    exact ⟨hf.a, hf.x, hf.y, hf.sp, hf.halted, hf.haltReason, hf.faultByte, hf.faultAddr, hf.exitRequest, hf.paused,
      hf.debugEnable, hf.debugInput, hf.config⟩
  · exact exec_frame h

/-- BRK's handler is the break halt, with or without a count (R94). -/
theorem handled_brk {addr : Word} {s t : State} (h : Claims.handled .brk addr s t) :
    t.halted = true ∧ t.haltReason = .breakOpcode := by
  unfold Claims.handled at h
  split at h
  · obtain ⟨u, hu, rfl⟩ := h
    obtain rfl := Host.Outcome.next.inj hu
    exact ⟨rfl, rfl⟩
  · obtain rfl := Host.Outcome.next.inj h
    exact ⟨rfl, rfl⟩

/-- Settles O49: a step command releases the pause and the pass goes on with the shown byte. -/
theorem stepCommandRunsTheShownInstruction : Obligations.StepCommandRunsTheShownInstruction := by
  intro s rest hh hp hx hin
  have hstep := step_of_step_command hh hp hin hx
  have hdecode := decodeFetched_eq_decodedAt ((s.setDebugInput rest).setPaused false)
  refine ⟨fun i hi => ?_, fun b hb => ?_⟩
  · obtain ⟨t, ht, hhandled⟩ := completePass_handled (hdecode.trans hi)
    refine ⟨t, hstep.trans ht, hhandled, ?_⟩
    rintro rfl
    exact handled_brk hhandled
  · rw [hstep, completePass_of_unrecognized (hdecode.trans hb), raiseUnrecognizedOpcode_eq]
    rfl

/-- Settles O50: the exit command also sets `exit_request`, which is seen at once under `after_gate` and at the next
loop head under `loop_head`. -/
theorem exitCommandEndsTheRun : Obligations.ExitCommandEndsTheRun := by
  intro s rest hh hp hin
  have hdecode := decodeFetched_eq_decodedAt (((s.setDebugInput rest).setExitRequest true).setPaused false)
  refine ⟨fun hsample i hi => ?_, fun hsample b hb => ?_, fun hsample => ?_⟩
  · obtain ⟨t, ht, hhandled⟩ := completePass_handled (hdecode.trans hi)
    have hf := handled_frame hhandled
    refine ⟨t, (step_of_exit_command_of_loopHead hh hp hin hsample).trans ht, hhandled, fun hne => ?_, ?_⟩
    · have hrunning : t.halted = false := (hf.halted fun hop => hne (Instr.eq_brk_of_op hop)).trans hh
      exact ⟨hrunning, exitIsSeenAtTheLoopHead t ⟨hrunning, hf.paused⟩ hf.exitRequest
        ((congrArg Config.exitSample hf.config).trans hsample)⟩
    · rintro rfl
      exact handled_brk hhandled
  · rw [step_of_exit_command_of_loopHead hh hp hin hsample,
      completePass_of_unrecognized (hdecode.trans hb), raiseUnrecognizedOpcode_eq]
    rfl
  · rw [step_of_exit_command_of_afterGate hh hp hin hsample]
    rfl

/-- From a pause, commands that neither step nor exit are read one a step, and then the step after them is taken. -/
theorem reaches_through_inspections {cs rest : List DebugCommand} {s t : State} (hh : s.halted = false)
    (hp : s.paused = true) (hcs : ∀ c ∈ cs, c ≠ .step ∧ c ≠ .exit) (hin : s.debugInput = cs ++ rest)
    (hlast : step (s.setDebugInput rest) = .next t) : reaches (cs.length + 1) s t := by
  induction cs generalizing s with
  | nil =>
    have hs : s.setDebugInput rest = s := by rw [List.nil_append] at hin; rw [← hin]; rfl
    exact ⟨t, hs ▸ hlast, rfl⟩
  | cons c cs ih =>
    obtain ⟨hstep, hexit⟩ := hcs c List.mem_cons_self
    exact ⟨s.setDebugInput (cs ++ rest), step_of_inspection hh hp hin hstep hexit,
      ih hh hp (fun d hd => hcs d (List.mem_cons_of_mem _ hd)) rfl hlast⟩

/-- The pause after a fetch, released with input left, is the fetch without the gate and with that input, but for
`DEBUG_ENABLE`. -/
theorem release_fetched_eq {s : State} (hp : s.paused = false) (hgate : s.debugEnable = true)
    (rest : List DebugCommand) :
    ((s.fetchOpcode.setPaused true).setDebugInput rest).setPaused false =
      { State.fetchOpcode { s with debugEnable := false, debugInput := rest } with debugEnable := true } := by
  cases s with
  | mk =>
    subst hp hgate
    rfl

/-- Settles O51: the gated run pauses after the fetch, reads the inspections, and then goes on from where the ungated
pass stands but for `DEBUG_ENABLE`, which no instruction reads. -/
theorem gateIsTransparent : Obligations.GateIsTransparent := by
  intro s cs rest hs hgate hx hcs hin
  have hready : Claims.ready { s with debugEnable := false, debugInput := rest } := ⟨hs.1, hs.2, hx, rfl⟩
  obtain ⟨u, hu⟩ := completePass_next (State.fetchOpcode { s with debugEnable := false, debugInput := rest })
  refine ⟨u, (step_eq_completePass_of_ready hready).trans hu, s.fetchOpcode.setPaused true, step_of_gate hs hgate hx,
    reaches_through_inspections hs.1 rfl hcs hin ?_⟩
  have hlast : step ((s.fetchOpcode.setPaused true).setDebugInput (.step :: rest)) =
      completePass (((s.fetchOpcode.setPaused true).setDebugInput rest).setPaused false) :=
    step_of_step_command (s := (s.fetchOpcode.setPaused true).setDebugInput (.step :: rest)) hs.1 rfl rfl hx
  rw [hlast, release_fetched_eq hs.2 hgate rest]
  exact completePass_with_gate hu true

end Sys2Proof.Machine
end

section
/-! The carry and overflow ADC writes (44_add_subtract.md). -/

namespace Sys2Proof.Machine

theorem getLsbD_seven (b : Byte) : b.getLsbD 7 = decide (128 ≤ b.toNat) :=
  (BitVec.msb_eq_getLsbD_last b).symm.trans (BitVec.msb_eq_decide b)

theorem bit_le_one (c : Bool) : bit c ≤ 1 := by
  cases c <;> decide

theorem addResult_toNat (a m : Byte) (c : Bool) : (addResult a m c).toNat = (a.toNat + m.toNat + bit c) % 256 := by
  simp only [addResult, BitVec.toNat_add, BitVec.toNat_ofNat]
  omega

/-- The sum's sign bit is the exclusive or of both sign bits and the carry into them, so that the sign-bit carry is
`M[7] ^ c7` (R142). -/
theorem signCarry_addResult (a m : Byte) (c : Bool) : signCarry a (addResult a m c) =
    (m.getLsbD 7 ^^ decide (128 ≤ a.toNat % 128 + m.toNat % 128 + bit c)) := by
  have ha := a.isLt
  have hm := m.isLt
  have hc := bit_le_one c
  rw [signCarry_eq, getLsbD_seven, getLsbD_seven, getLsbD_seven, addResult_toNat, Bool.eq_iff_iff]
  simp only [bne_iff_ne, ne_eq, decide_eq_decide]
  omega

/-- Bit 8 of the sum is the majority of both sign bits and the carry into them. -/
theorem bit_eight_eq_majority (a m : Byte) (c : Bool) : decide (256 ≤ a.toNat + m.toNat + bit c) =
    (a.getLsbD 7 && m.getLsbD 7 ||
      decide (128 ≤ a.toNat % 128 + m.toNat % 128 + bit c) && (a.getLsbD 7 || m.getLsbD 7)) := by
  have ha := a.isLt
  have hm := m.isLt
  have hc := bit_le_one c
  rw [getLsbD_seven, getLsbD_seven, Bool.eq_iff_iff]
  simp only [Bool.or_eq_true, Bool.and_eq_true, decide_eq_true_eq]
  omega

theorem xor_eq_majority_iff : ∀ a m c : Bool, ((m ^^ c) = (a && m || c && (a || m)) ↔
    (a, m, c) ∈ [(false, false, false), (true, false, false), (true, false, true), (true, true, false)]) := by
  decide

/-- Settles O15: the sign-bit carry is `M[7] ^ c7` and bit 8 the majority of `A[7]`, `M[7]` and `c7`; they agree in four
of the eight cases. -/
theorem adcCarryIsNotBitEight : Obligations.AdcCarryIsNotBitEight := by
  intro a m c n c7 bit8
  have hxor : addCarry .msbXor a m c = (m.getLsbD 7 ^^ c7) := signCarry_addResult a m c
  have hmajority : bit8 = (a.getLsbD 7 && m.getLsbD 7 || c7 && (a.getLsbD 7 || m.getLsbD 7)) :=
    bit_eight_eq_majority a m c
  refine ⟨rfl, hxor, ?_⟩
  rw [hxor, hmajority]
  exact xor_eq_majority_iff _ _ _

/-- The operation ADC adds an operand. -/
theorem exec_eq_addWithCarry_of_adc {i : Instr} (hop : i.op = .adc) : ∃ o, ∀ s, exec i s = addWithCarry o s := by
  cases execForm i with
  | @add _ o hexec _ _ => exact ⟨o, hexec⟩
  | @load _ r _ _ h _ => cases r <;> cases hop.symm.trans h
  | @store _ r _ _ h _ _ => cases r <;> cases hop.symm.trans h
  | subtract _ h _ | increment _ h _ _ => cases hop.symm.trans h
  | inx | iny | sec | clc | jsr | rts | brk => cases hop

/-- The overflow formula's second factor is the sign-bit carry (R142, R143). -/
theorem signCarry_of_signOverflow {a m r : Byte} (h : signOverflow a m r = true) : signCarry a r = true :=
  (Bool.and_eq_true_iff.1 h).2

/-- Settles O16: both flags come from the one result. -/
theorem adcOverflowImpliesCarry : Obligations.AdcOverflowImpliesCarry := by
  intro i s t hop hrule h hv
  obtain ⟨o, hexec⟩ := exec_eq_addWithCarry_of_adc hop
  rw [hexec, addWithCarry_eq] at h
  obtain rfl := Host.Outcome.next.inj h
  have hcarry := signCarry_of_signOverflow hv
  simp only [State.addOperand, State.setReg_flags, State.setFlags_flags, Flags.arith, addCarry, hrule]
  exact hcarry

end Sys2Proof.Machine
end

section
/-! The stack, call and return (47_subroutine.md), the carry flag and the break (46_carry_flag.md, 48_break.md). -/

namespace Sys2Proof.Machine

/-- Settles O19: both are the write of `C`. -/
theorem secAndClcWriteCarryOnly : Obligations.SecAndClcWriteCarryOnly :=
  fun s => ⟨⟨s.cyclesRemaining - 1, rfl⟩, ⟨s.cyclesRemaining - 1, rfl⟩⟩

/-- Settles O25: BRK is the halt and nothing else. -/
theorem brkHaltsSilently : Obligations.BrkHaltsSilently := fun _ => rfl

/-- Going down the ring by 1 is the integer difference modulo 256. -/
theorem sub_one_eq_ofInt (p : Byte) : p - 1#8 = BitVec.ofInt 8 ((p.toNat : Int) - 1) := by
  have hp := p.isLt
  apply BitVec.eq_of_toNat_eq
  rw [BitVec.toNat_ofInt, BitVec.toNat_sub, BitVec.toNat_ofNat]
  omega

/-- Going up the ring by 1 is the sum modulo 256. -/
theorem add_one_eq_ofNat (p : Byte) : p + 1#8 = BitVec.ofNat 8 (p.toNat + 1) := add_one_eq_plusOne p

/-- Settles O20: a push writes the cell `SP` names and goes down, a pop goes up and reads. -/
theorem pushAndPopMoveOneByte : Obligations.PushAndPopMoveOneByte := by
  intro s v
  rw [State.pushByte_eq, State.popByte_eq, ← sub_one_eq_ofInt, ← add_one_eq_ofNat, stackCell_eq_cell, stackCell_eq_cell]
  exact ⟨⟨Memory.read_write_same _ _ _, fun addr => Memory.read_write_other _ _ _ _, rfl⟩, rfl, rfl⟩

theorem lowByte_eq_ofNat (w : Word) : lowByte w = BitVec.ofNat 8 (w.toNat % 256) := by
  apply BitVec.eq_of_toNat_eq
  rw [lowByte_toNat, BitVec.toNat_ofNat]
  omega

theorem highByte_eq_ofNat (w : Word) : highByte w = BitVec.ofNat 8 (w.toNat / 256) := by
  have hw := w.isLt
  apply BitVec.eq_of_toNat_eq
  rw [highByte_toNat, BitVec.toNat_ofNat]
  omega

/-- A pointer and the one below it in the ring name different cells (R183). -/
theorem stackCell_ne_stackCell_sub_one (p : Byte) : stackCell p ≠ stackCell (p - 1#8) := fun h => by
  have hp := stackCell_inj h
  bv_omega

theorem pushWord_read_low (s : State) (w : Word) : (s.pushWord w).mem.read (stackCell s.sp) = lowByte w := by
  rw [State.pushWord_eq, Memory.read_write_other _ _ _ _ (stackCell_ne_stackCell_sub_one s.sp), Memory.read_write_same]

theorem pushWord_read_high (s : State) (w : Word) :
    (s.pushWord w).mem.read (stackCell (s.sp - 1#8)) = highByte w := by
  rw [State.pushWord_eq, Memory.read_write_same]

theorem pushWord_sp (s : State) (w : Word) : (s.pushWord w).sp = s.sp - 2#8 := by
  rw [State.pushWord_eq]
  bv_omega

/-- Settles O21: the low byte is pushed first, and the second push is one cell lower. -/
theorem pushWordLeavesLowByteHigher : Obligations.PushWordLeavesLowByteHigher := by
  intro s w
  rw [← stackCell_eq_cell, ← stackCell_eq_cell, pushWord_read_low, pushWord_read_high]
  refine ⟨lowByte_eq_ofNat w, highByte_eq_ofNat w, pushWord_sp s w, fun addr hlow hhigh => ?_⟩
  rw [State.pushWord_eq, Memory.read_write_other _ _ _ _ hhigh, Memory.read_write_other _ _ _ _ hlow]

/-- A state with the stack pointer and the two cells a push of a word left pops that word. -/
theorem popWord_of_pushed {s t : State} {w : Word} (hsp : t.sp = s.sp - 2#8)
    (hhigh : t.mem.read (stackCell (s.sp - 1#8)) = highByte w) (hlow : t.mem.read (stackCell s.sp) = lowByte w) :
    t.popWord.1 = w ∧ t.popWord.2.sp = s.sp := by
  have h1 : t.sp + 1#8 = s.sp - 1#8 := by rw [hsp]; bv_omega
  have h2 : s.sp - 1#8 + 1#8 = s.sp := by bv_omega
  rw [State.popWord_eq, h1, h2, hhigh, hlow, joinBytes_high_low]
  exact ⟨rfl, rfl⟩

/-- Settles O22: the cells popped are the cells pushed, in the other order. -/
theorem popAfterPushRestores : Obligations.PopAfterPushRestores :=
  fun s w => popWord_of_pushed (pushWord_sp s w) (pushWord_read_high s w) (pushWord_read_low s w)

theorem sub_one_sub_one (p : Byte) : p - 1#8 - 1#8 = p - 2#8 := by bv_omega

theorem add_one_add_one (p : Byte) : p + 1#8 + 1#8 = p + 2#8 := by bv_omega

/-- Settles O23: JSR is the push of the return address and the jump. -/
theorem jsrPushesAndJumps : Obligations.JsrPushesAndJumps := by
  intro s target
  refine ⟨s.cyclesRemaining - 2 - 1 - 1 - 1, ?_⟩
  rw [exec_jsr_eq, State.pushWord_eq, sub_one_sub_one, stackCell_eq_cell, stackCell_eq_cell, lowByte_eq_ofNat,
    highByte_eq_ofNat]

theorem joinBytes_eq_ofNat (hi lo : Byte) : joinBytes hi lo = BitVec.ofNat 16 (256 * hi.toNat + lo.toNat) := by
  rw [← joinBytes_toNat_weight_first, BitVec.ofNat_toNat, BitVec.setWidth_eq]

/-- Settles O24: RTS is the pop of a word into `PC`. -/
theorem rtsLoadsThePoppedWord : Obligations.RtsLoadsThePoppedWord := by
  intro s
  refine ⟨s.cyclesRemaining - 1 - 1 - 3, ?_⟩
  rw [exec_rts_eq, State.popWord_eq, joinBytes_eq_ofNat, add_one_add_one, stackCell_eq_cell, stackCell_eq_cell]

/-- Settles O26: RTS pops the word JSR pushed, from the cells JSR pushed it to. -/
theorem returnContinuesAfterCall : Obligations.ReturnContinuesAfterCall := by
  intro s t t' u target hcall hsp hhigh hlow hreturn
  rw [exec_jsr_eq] at hcall
  obtain rfl := Host.Outcome.next.inj hcall
  rw [exec_rts_eq] at hreturn
  obtain rfl := Host.Outcome.next.inj hreturn
  have h1 : s.sp - 2#8 + 1#8 = s.sp - 1#8 := by bv_omega
  have h2 : s.sp - 2#8 + 2#8 = s.sp := by bv_omega
  simp only [pushWord_sp, h1, h2, ← stackCell_eq_cell, pushWord_read_high, pushWord_read_low] at hsp hhigh hlow
  obtain ⟨hword, hptr⟩ := popWord_of_pushed hsp hhigh hlow
  exact ⟨hptr, hword⟩

/-- Settles O41: the one write of STA ABS is at its operand, and the next decode reads memory after it. -/
theorem storedByteIsFetched : Obligations.StoredByteIsFetched := by
  intro s t target h
  have hmem : t.mem = s.mem.write target s.a := by
    obtain rfl := Host.Outcome.next.inj h
    rfl
  rw [Claims.decodedAt, hmem, (exec_frame h).config, Memory.read_write, Memory.read_write, Memory.read_write]

end Sys2Proof.Machine
end

section
/-! Reset, loading and launch (70_reset_and_hazards.md sections 1 and 2). -/

namespace Sys2Proof.Machine

/-- Settles O7: every field of the state after creation is the one written in `State.reset`. -/
theorem resetState : Obligations.ResetState :=
  ⟨⟨rfl, rfl, rfl, rfl, rfl⟩, rfl, Memory.read_nil, ⟨rfl, rfl, rfl, rfl, rfl, rfl, rfl⟩, rfl, rfl, rfl⟩

/-- After a run of writes that does not lap the address space, each address within it reads the byte put there and any
other what it read before (R51, R256). -/
theorem Memory.read_writeBytes (m : Memory) (start addr : Word) (bs : List Byte) (hlen : bs.length ≤ 65536) :
    (m.writeBytes start bs).read addr = bs[(addr - start).toNat]?.getD (m.read addr) := by
  induction bs generalizing m start with
  | nil => rfl
  | cons b bs ih =>
    rw [List.length_cons] at hlen
    rw [Memory.writeBytes, ih _ _ (by omega), Memory.read_write]
    by_cases haddr : addr = start
    · subst haddr
      have hlast : (addr - (addr + 1#16)).toNat = 65535 := by bv_omega
      have hfirst : (addr - addr).toNat = 0 := by bv_omega
      rw [hlast, hfirst, List.getElem?_eq_none (by omega)]
      simp
    · have hsucc : (addr - start).toNat = (addr - (start + 1#16)).toNat + 1 := by bv_omega
      rw [hsucc, List.getElem?_cons_succ, if_neg haddr]

/-- A launch with well-formed parameters and an image that fits (R256, R257). -/
theorem launch_eq {cfg : Config} {image : List Byte} (hcfg : cfg.wellFormed = true) (hlen : image.length ≤ 65024)
    (dbg : Bool) (input : List DebugCommand) : launch cfg dbg input image =
      .next { State.reset with
        mem := Memory.writeBytes [] base image, config := cfg, debugEnable := dbg, debugInput := input } := by
  have himage : imageWellFormed image = true := decide_eq_true hlen
  simp only [launch, hcfg, loadImage, himage, if_true]
  rfl

/-- What the loaded memory reads, by the address's distance from 0x0200. -/
theorem read_loaded {image : List Byte} (hlen : image.length ≤ 65024) (addr : Word) :
    (Memory.writeBytes [] base image).read addr = image[(addr - base).toNat]?.getD 0x00#8 := by
  rw [Memory.read_writeBytes _ _ _ _ (by omega), Memory.read_nil]

/-- Settles O8: the loader writes the image's bytes from 0x0200 up over empty memory. -/
theorem launchLoadsTheImage : Obligations.LaunchLoadsTheImage := by
  intro cfg dbg input image hcfg hlen
  refine ⟨_, launch_eq hcfg hlen dbg input, fun k hk => ?_, fun addr hout => ?_, Memory.wf_writeBytes rfl _ _, rfl⟩
  · have hdist : (BitVec.ofNat 16 (0x0200 + k) - base).toNat = k := by
      rw [base]
      bv_omega
    rw [read_loaded hlen, hdist, List.getElem?_eq_getElem hk, Option.getD_some]
  · have hdist : image.length ≤ (addr - base).toNat := by
      rw [base]
      bv_omega
    rw [read_loaded hlen, List.getElem?_eq_none hdist, Option.getD_none]

/-- Settles O9: the length check stands after the table's. -/
theorem overlongImageIsRefused : Obligations.OverlongImageIsRefused := by
  intro cfg dbg input image hcfg hlen
  have himage : imageWellFormed image = false := decide_eq_false (Nat.not_le.2 hlen)
  simp [launch, hcfg, loadImage, himage]

/-- What a launch that answers a next state has checked (R256; log entry 1). -/
theorem launch_next_checks {cfg : Config} {dbg : Bool} {input : List DebugCommand} {image : List Byte} {t : State}
    (h : launch cfg dbg input image = .next t) : cfg.wellFormed = true ∧ image.length ≤ 65024 := by
  unfold launch loadImage at h
  split at h
  · rename_i hcfg
    split at h
    · rename_i himage
      exact ⟨hcfg, of_decide_eq_true himage⟩
    · cases h
  · cases h

/-- A state with the fields of reset but for canonical memory, parameters and the host's inputs has the invariant. -/
theorem inv_of_reset_but {mem : Memory} (hmem : mem.wf = true) (cfg : Config) (dbg : Bool) (input : List DebugCommand) :
    State.Inv { State.reset with mem := mem, config := cfg, debugEnable := dbg, debugInput := input } :=
  State.Running.inv ⟨hmem, ⟨rfl, rfl, rfl⟩, rfl, rfl, rfl, rfl, rfl, nofun⟩ rfl

/-- Settles O43: a launch writes canonical memory and leaves the latches at reset. -/
theorem launchedEngineHasTheInvariant : Obligations.LaunchedEngineHasTheInvariant := by
  refine ⟨inv_of_reset_but State.reset_mem_wf defaultConfig false [], fun cfg dbg input image t h => ?_⟩
  obtain ⟨hcfg, hlen⟩ := launch_next_checks h
  obtain rfl := Host.Outcome.next.inj ((launch_eq hcfg hlen dbg input).symm.trans h)
  exact inv_of_reset_but (Memory.wf_writeBytes rfl _ _) cfg dbg input

theorem defaultConfig_wellFormed : defaultConfig.wellFormed = true := defaultOptab_wellFormed

/-- Settles O52: the empty image launches to the reset state, whose first fetch is a break. -/
theorem untouchedMemoryHaltsSilently : Obligations.UntouchedMemoryHaltsSilently := by
  obtain ⟨t, ht, -, rfl⟩ := breakHaltsPastItsByte State.reset ⟨rfl, rfl, rfl, rfl⟩ rfl (by decide)
  exact ⟨State.reset, launch_eq defaultConfig_wellFormed (Nat.zero_le _) false [], ht⟩

/-- What makes a row ill formed: a mode its operation's rule does not list, another length than the mode's, a count
where BRK has none or none where another operation has one, or the count 0 (log entry 1). -/
theorem OpRow.wellFormed_eq_false_iff (r : OpRow) : r.wellFormed = false ↔
    r.mode ∉ r.op.modes ∨ r.len ≠ 1 + r.mode.operandBytes ∨ (r.cyc = none ↔ r.op ≠ .brk) ∨ r.cyc = some 0 := by
  obtain ⟨byte, op, mode, len, cyc⟩ := r
  cases cyc with
  | none =>
    simp only [OpRow.wellFormed, Op.admits, List.contains_eq_mem, Bool.and_eq_false_imp, Bool.and_eq_true,
      decide_eq_true_eq, beq_iff_eq, beq_eq_false_iff_ne, ne_eq, and_imp, true_iff, reduceCtorEq, or_false]
    tauto
  | some n =>
    simp only [OpRow.wellFormed, Op.admits, List.contains_eq_mem, Bool.and_eq_false_imp, Bool.and_eq_true,
      decide_eq_true_eq, beq_iff_eq, bne_iff_ne, ne_eq, decide_eq_false_iff_not, not_le, Order.lt_one_iff, and_imp,
      reduceCtorEq, false_iff, Decidable.not_not, Option.some.injEq]
    tauto

/-- An ill-formed table has an ill-formed row or two rows for one byte. -/
theorem Config.wellFormed_eq_false_iff (cfg : Config) : cfg.wellFormed = false ↔
    (∃ r ∈ cfg.optab, r.wellFormed = false) ∨ ¬(cfg.optab.map OpRow.byte).Nodup := by
  rw [← Bool.not_eq_true, Config.wellFormed, OpTable.wellFormed_iff, not_and_or]
  simp

/-- Settles O54: the table is checked first, row by row and for doubled bytes. -/
theorem illFormedTableIsRefused : Obligations.IllFormedTableIsRefused := by
  intro cfg dbg input image
  refine ⟨?_, ?_⟩
  · cases hcfg : cfg.wellFormed with
    | false => simp [launch, hcfg]
    | true =>
      simp only [launch, hcfg, loadImage, if_true]
      split <;> simp
  · rw [Config.wellFormed_eq_false_iff]
    simp only [OpRow.wellFormed_eq_false_iff]

/-- The three loaded bytes are the ones at 0x0200 and after it. -/
theorem decodedAt_loaded {s : State} (b0 b1 b2 : Byte) (hmem : s.mem = Memory.writeBytes [] base [b0, b1, b2]) :
    Claims.decodedAt base s = decodeBytesIn s.config.optab b0 b1 b2 := by
  have hlen : [b0, b1, b2].length ≤ 65024 := by simp
  simp [Claims.decodedAt, hmem, read_loaded hlen]

/-- Settles O53: the loaded bytes are the ones decoded, by the row the first of them finds. -/
theorem substitutedTableIsObeyed : Obligations.SubstitutedTableIsObeyed := by
  intro cfg b0 b1 b2 hcfg
  obtain ⟨hrows, hnodup⟩ := OpTable.wellFormed_iff.1 hcfg
  have hlen : [b0, b1, b2].length ≤ 65024 := by simp
  refine ⟨_, launch_eq hcfg hlen false [], ⟨rfl, rfl, rfl, rfl⟩, rfl, fun r hm hbyte => ?_, fun hnone => ?_⟩
  · subst hbyte
    have hr := lookupOpcode_of_mem hnodup hm (hrows r hm)
    obtain ⟨hadmits, hrlen, -⟩ := OpRow.wellFormed_parts (hrows r hm)
    obtain ⟨i, hi⟩ := Instr.ofParts_of_admits hadmits b1 b2
    obtain ⟨hop, hmode, hfields⟩ := Instr.ofParts_eq_some hi
    refine ⟨i, ?decoded, hop, hmode, by rw [Instr.length, hmode, hrlen], ?fields, ?count⟩
    case fields => rw [hfields, hrlen, Nat.add_sub_cancel_left]
    case decoded =>
      refine (decodedAt_loaded r.byte b1 b2 rfl).trans ?_
      simp [decodeBytesIn, hr, hi]
    case count =>
      have hfirst : (Memory.writeBytes [] base [r.byte, b1, b2]).read base = r.byte := by simp [read_loaded hlen]
      refine (congrArg (fun b => (lookupOpcode cfg.optab b).bind OpRow.cyc) hfirst).trans ?_
      rw [hr, Option.bind_some]
  · refine (decodedAt_loaded b0 b1 b2 rfl).trans (decodeBytesIn_eq_unrecognized_iff.2 ⟨?_, rfl⟩)
    exact lookupOpcode_eq_none.2 fun r hm _ => hnone r hm

end Sys2Proof.Machine
end
